-- ==== Sys2Proof/Word.lean ====
section
/-! DEFINITION. The bytes, words and byte strings of 00_scope.md (rules R10 to R12). -/

namespace Sys2Proof

/-- A `u8` (R10). -/
abbrev Byte := BitVec 8

/-- A `u32` (R10). -/
abbrev Word := BitVec 32

/-- `B[n]`: a string of exactly n bytes, indexed from 0 (R11). -/
abbrev Bytes (n : Nat) := Vector Byte n

/-- A 16-byte block (R9, BLOCK_BYTES). -/
abbrev Block := Bytes 16

/-- A list of exactly n words, indexed from 0. -/
abbrev Words (n : Nat) := Vector Word n

/-- `zeros(n)` (R11). -/
abbrev zeros (n : Nat) : Bytes n := Vector.replicate n 0

/-- n words, all 0. -/
abbrev zeroWords (n : Nat) : Words n := Vector.replicate n 0

end Sys2Proof
end

