-- ==== Sys2Proof/Syntax.lean ====
section
/-! DEFINITION. The commands of CORE: one constructor for each of the 23 rows of 30_encoding.md R75. -/

namespace Sys2Proof

/-- A command. `len` and `nlen` are the unsigned byte counts LEN and NLEN (R72), `gen` the GEN bit. -/
inductive Instr where
  /-- KEY_LOAD, SEL = 0 (41_aes.md R126). -/
  | keyLoadAes (len : Nat)
  /-- KEY_LOAD, SEL = 1 (42_twofish.md R156). -/
  | keyLoadTf (len : Nat)
  /-- KEY_LOAD, SEL = 2, GEN = 0 (43_salsa20.md R181). -/
  | keyLoadSalsa (len nlen : Nat)
  /-- KEY_LOAD, SEL = 2, GEN = 1 (43_salsa20.md R181). -/
  | keyLoadSalsaGen (len : Nat)
  /-- BLOCK_ENC, SEL = 0 (41_aes.md R127). -/
  | blockEncAes
  /-- BLOCK_ENC, SEL = 1 (42_twofish.md R157). -/
  | blockEncTf
  /-- BLOCK_DEC, SEL = 0 (41_aes.md R128). -/
  | blockDecAes
  /-- BLOCK_DEC, SEL = 1 (42_twofish.md R158). -/
  | blockDecTf
  /-- SALSA_PROCESS (43_salsa20.md R182). -/
  | salsaProcess
  /-- ECB_ENC, SEL = 0 (44_modes.md R193). -/
  | ecbEncAes (len : Nat)
  /-- ECB_ENC, SEL = 1 (44_modes.md R193). -/
  | ecbEncTf (len : Nat)
  /-- ECB_DEC, SEL = 0 (44_modes.md R194). -/
  | ecbDecAes (len : Nat)
  /-- ECB_DEC, SEL = 1 (44_modes.md R194). -/
  | ecbDecTf (len : Nat)
  /-- CBC_ENC_START, SEL = 0 (44_modes.md R198). -/
  | cbcEncStartAes (gen : Bool)
  /-- CBC_ENC_START, SEL = 1 (44_modes.md R198). -/
  | cbcEncStartTf (gen : Bool)
  /-- CBC_ENC_UPDATE (44_modes.md R199). -/
  | cbcEncUpdate (len : Nat)
  /-- CBC_ENC_FINAL (44_modes.md R200). -/
  | cbcEncFinal (len : Nat)
  /-- CBC_DEC_START, SEL = 0 (44_modes.md R205). -/
  | cbcDecStartAes (len : Nat)
  /-- CBC_DEC_START, SEL = 1 (44_modes.md R205). -/
  | cbcDecStartTf (len : Nat)
  /-- CBC_DEC_UPDATE (44_modes.md R207). -/
  | cbcDecUpdate (len : Nat)
  /-- CBC_DEC_FINAL (44_modes.md R208). -/
  | cbcDecFinal (len : Nat)
  /-- CBC_ABORT (40_command.md R104). -/
  | cbcAbort
  /-- ZEROIZE (40_command.md R103). -/
  | zeroize
  deriving DecidableEq, Repr

end Sys2Proof
end

