-- ==== Sys2Proof/WellFormed.lean ====
section
/-! DEFINITION. When a command can be encoded: LEN and NLEN are 7-bit fields (30_encoding.md R70). -/

namespace Sys2Proof

/-- A byte count that fits LEN or NLEN: 0..127 (R70, R72). -/
def countFits (n : Nat) : Bool := decide (n < 128)

/-- The command's operands fit its fields. A length the command does not accept is well formed (R77). -/
def Instr.wellFormed : Instr → Bool
  | .keyLoadAes len => countFits len
  | .keyLoadTf len => countFits len
  | .keyLoadSalsa len nlen => countFits len && countFits nlen
  | .keyLoadSalsaGen len => countFits len
  | .blockEncAes => true
  | .blockEncTf => true
  | .blockDecAes => true
  | .blockDecTf => true
  | .salsaProcess => true
  | .ecbEncAes len => countFits len
  | .ecbEncTf len => countFits len
  | .ecbDecAes len => countFits len
  | .ecbDecTf len => countFits len
  | .cbcEncStartAes _ => true
  | .cbcEncStartTf _ => true
  | .cbcEncUpdate len => countFits len
  | .cbcEncFinal len => countFits len
  | .cbcDecStartAes len => countFits len
  | .cbcDecStartTf len => countFits len
  | .cbcDecUpdate len => countFits len
  | .cbcDecFinal len => countFits len
  | .cbcAbort => true
  | .zeroize => true

end Sys2Proof
end

