-- ==== Sys2Proof/Decode.lean ====
section
/-! DEFINITION. The command word: its fields, the opcode map, decoding, the illegal words and the encoder
(30_encoding.md R70 to R79). -/

namespace Sys2Proof

/-- The fields of a command word (R70). -/
structure Fields where
  op   : BitVec 8
  sel  : BitVec 2
  gen  : BitVec 1
  rsvA : BitVec 5
  len  : BitVec 7
  rsvB : BitVec 1
  nlen : BitVec 7
  rsvC : BitVec 1
  deriving DecidableEq, Repr

/-- Field extraction (R71). -/
def fields (w : Word) : Fields where
  op   := w.extractLsb' 0 8
  sel  := w.extractLsb' 8 2
  gen  := w.extractLsb' 10 1
  rsvA := w.extractLsb' 11 5
  len  := w.extractLsb' 16 7
  rsvB := w.extractLsb' 23 1
  nlen := w.extractLsb' 24 7
  rsvC := w.extractLsb' 31 1

/-- The word whose fields are these: the converse of `fields` (R70). -/
def Fields.word (f : Fields) : Word :=
  f.rsvC ++ f.nlen ++ f.rsvB ++ f.len ++ f.rsvA ++ f.gen ++ f.sel ++ f.op

/-- Why a word is no command: the four cases of R76. -/
inductive DecodeReject where
  /-- (a) OP is not in the opcode map. -/
  | unassignedOp
  /-- (b) SEL is not a legal SEL of OP. -/
  | illegalSel
  /-- (c) RSV_A, RSV_B or RSV_C is not 0. -/
  | reservedBitSet
  /-- (d) a field that the opcode map marks 0 is not 0. -/
  | unusedFieldSet
  deriving DecidableEq, Repr

/-- SEL picks one of two commands; any other SEL is illegal for the opcode. -/
def bySel (sel : BitVec 2) (aes tf : Instr) : Except DecodeReject Instr :=
  match sel.toNat with
  | 0 => .ok aes
  | 1 => .ok tf
  | _ => .error .illegalSel

/-- SEL must have this one value. -/
def onlySel (sel want : BitVec 2) (i : Instr) : Except DecodeReject Instr :=
  if sel = want then .ok i else .error .illegalSel

/-- After SEL is known to be legal, the fields marked 0 are checked (R76 (d)). -/
def ifUnused (unused : Bool) (r : Except DecodeReject Instr) : Except DecodeReject Instr :=
  match r with
  | .error e => .error e
  | .ok i => if unused then .ok i else .error .unusedFieldSet

/-- KEY_LOAD: GEN is free only for SEL = 2, NLEN only for SEL = 2 with GEN = 0 (R74). -/
def decodeKeyLoad (f : Fields) : Except DecodeReject Instr :=
  match f.sel.toNat with
  | 0 => ifUnused (f.gen == 0 && f.nlen == 0) (.ok (.keyLoadAes f.len.toNat))
  | 1 => ifUnused (f.gen == 0 && f.nlen == 0) (.ok (.keyLoadTf f.len.toNat))
  | 2 =>
    if f.gen = 0 then .ok (.keyLoadSalsa f.len.toNat f.nlen.toNat)
    else ifUnused (f.nlen == 0) (.ok (.keyLoadSalsaGen f.len.toNat))
  | _ => .error .illegalSel

/-- The opcode map (R74), with the fields each opcode uses. -/
def decodeFields (f : Fields) : Except DecodeReject Instr :=
  let noGenLenNlen := f.gen == 0 && f.len == 0 && f.nlen == 0
  let noGenNlen := f.gen == 0 && f.nlen == 0
  let noLenNlen := f.len == 0 && f.nlen == 0
  match f.op.toNat with
  | 0x01 => decodeKeyLoad f
  | 0x02 => ifUnused noGenLenNlen (bySel f.sel .blockEncAes .blockEncTf)
  | 0x03 => ifUnused noGenLenNlen (bySel f.sel .blockDecAes .blockDecTf)
  | 0x04 => ifUnused noGenLenNlen (onlySel f.sel 2 .salsaProcess)
  | 0x05 => ifUnused noGenNlen (bySel f.sel (.ecbEncAes f.len.toNat) (.ecbEncTf f.len.toNat))
  | 0x06 => ifUnused noGenNlen (bySel f.sel (.ecbDecAes f.len.toNat) (.ecbDecTf f.len.toNat))
  | 0x08 => ifUnused noLenNlen (bySel f.sel (.cbcEncStartAes (f.gen == 1)) (.cbcEncStartTf (f.gen == 1)))
  | 0x09 => ifUnused noGenNlen (onlySel f.sel 0 (.cbcEncUpdate f.len.toNat))
  | 0x0A => ifUnused noGenNlen (onlySel f.sel 0 (.cbcEncFinal f.len.toNat))
  | 0x0C => ifUnused noGenNlen (bySel f.sel (.cbcDecStartAes f.len.toNat) (.cbcDecStartTf f.len.toNat))
  | 0x0D => ifUnused noGenNlen (onlySel f.sel 0 (.cbcDecUpdate f.len.toNat))
  | 0x0E => ifUnused noGenNlen (onlySel f.sel 0 (.cbcDecFinal f.len.toNat))
  | 0x0F => ifUnused noGenLenNlen (onlySel f.sel 0 .cbcAbort)
  | 0x10 => ifUnused noGenLenNlen (onlySel f.sel 0 .zeroize)
  | _ => .error .unassignedOp

/-- Decoding, total on every word: a command, or why there is none (R76). -/
def decode (w : Word) : Except DecodeReject Instr :=
  let f := fields w
  if f.rsvA = 0 ∧ f.rsvB = 0 ∧ f.rsvC = 0 then decodeFields f else .error .reservedBitSet

/-- Is OP in R74's table? R76 (a) lists the others: 0x00, 0x07, 0x0B and 0x11 to 0xFF. -/
def opAssigned (op : BitVec 8) : Bool :=
  !(op == 0x00 || op == 0x07 || op == 0x0B || decide (0x11 ≤ op.toNat))

/-- "Legal SEL" of R74's table, row by row. -/
def selLegal (op : BitVec 8) (sel : BitVec 2) : Bool :=
  match op.toNat with
  | 0x01 => sel == 0 || sel == 1 || sel == 2
  | 0x02 | 0x03 | 0x05 | 0x06 | 0x08 | 0x0C => sel == 0 || sel == 1
  | 0x04 => sel == 2
  | 0x09 | 0x0A | 0x0D | 0x0E | 0x0F | 0x10 => sel == 0
  | _ => false

/-- The column GEN of R74's table: the field is used. -/
def usesGen (op : BitVec 8) (sel : BitVec 2) : Bool :=
  (op == 0x01 && sel == 2) || op == 0x08

/-- The column LEN of R74's table: the field is used. -/
def usesLen (op : BitVec 8) : Bool :=
  op == 0x01 || op == 0x05 || op == 0x06 || op == 0x09 || op == 0x0A || op == 0x0C || op == 0x0D || op == 0x0E

/-- The column NLEN of R74's table: the field is used. -/
def usesNlen (op : BitVec 8) (sel : BitVec 2) (gen : BitVec 1) : Bool :=
  op == 0x01 && sel == 2 && gen == 0

/-- R76: the word is illegal, by its four cases (a) to (d) over R74's table. -/
def illegalWord (w : Word) : Bool :=
  let f := fields w
  !opAssigned f.op
  || !selLegal f.op f.sel
  || (f.rsvA != 0 || f.rsvB != 0 || f.rsvC != 0)
  || ((f.gen != 0 && !usesGen f.op f.sel)
    || (f.len != 0 && !usesLen f.op)
    || (f.nlen != 0 && !usesNlen f.op f.sel f.gen))

/-- One row of the opcode table: a word matches it when `w & mask = value` (R75). -/
structure Row where
  mnemonic : String
  value    : Word
  mask     : Word
  deriving DecidableEq, Repr

/-- A word matches a row (R75). -/
def Row.matches (r : Row) (w : Word) : Bool := w &&& r.mask == r.value

/-- The rows of the cipher commands, patterns of R78. -/
def cipherRows : List Row :=
  [ ⟨"KEY_LOAD.AES", 0x00000001, 0xFF80FFFF⟩
  , ⟨"KEY_LOAD.TF", 0x00000101, 0xFF80FFFF⟩
  , ⟨"KEY_LOAD.SALSA", 0x00000201, 0x8080FFFF⟩
  , ⟨"KEY_LOAD.SALSA.GEN", 0x00000601, 0xFF80FFFF⟩
  , ⟨"BLOCK_ENC.AES", 0x00000002, 0xFFFFFFFF⟩
  , ⟨"BLOCK_ENC.TF", 0x00000102, 0xFFFFFFFF⟩
  , ⟨"BLOCK_DEC.AES", 0x00000003, 0xFFFFFFFF⟩
  , ⟨"BLOCK_DEC.TF", 0x00000103, 0xFFFFFFFF⟩
  , ⟨"SALSA_PROCESS", 0x00000204, 0xFFFFFFFF⟩ ]

/-- The rows of the mode commands, CBC_ABORT and ZEROIZE, patterns of R78. -/
def modeRows : List Row :=
  [ ⟨"ECB_ENC.AES", 0x00000005, 0xFF80FFFF⟩
  , ⟨"ECB_ENC.TF", 0x00000105, 0xFF80FFFF⟩
  , ⟨"ECB_DEC.AES", 0x00000006, 0xFF80FFFF⟩
  , ⟨"ECB_DEC.TF", 0x00000106, 0xFF80FFFF⟩
  , ⟨"CBC_ENC_START.AES", 0x00000008, 0xFFFFFBFF⟩
  , ⟨"CBC_ENC_START.TF", 0x00000108, 0xFFFFFBFF⟩
  , ⟨"CBC_ENC_UPDATE", 0x00000009, 0xFF80FFFF⟩
  , ⟨"CBC_ENC_FINAL", 0x0000000A, 0xFF80FFFF⟩
  , ⟨"CBC_DEC_START.AES", 0x0000000C, 0xFF80FFFF⟩
  , ⟨"CBC_DEC_START.TF", 0x0000010C, 0xFF80FFFF⟩
  , ⟨"CBC_DEC_UPDATE", 0x0000000D, 0xFF80FFFF⟩
  , ⟨"CBC_DEC_FINAL", 0x0000000E, 0xFF80FFFF⟩
  , ⟨"CBC_ABORT", 0x0000000F, 0xFFFFFFFF⟩
  , ⟨"ZEROIZE", 0x00000010, 0xFFFFFFFF⟩ ]

/-- The 23 rows of the opcode table (R75). -/
def opcodeRows : List Row := cipherRows ++ modeRows

/-- The row a command stands in (R75). -/
def Instr.mnemonic : Instr → String
  | .keyLoadAes _ => "KEY_LOAD.AES"
  | .keyLoadTf _ => "KEY_LOAD.TF"
  | .keyLoadSalsa _ _ => "KEY_LOAD.SALSA"
  | .keyLoadSalsaGen _ => "KEY_LOAD.SALSA.GEN"
  | .blockEncAes => "BLOCK_ENC.AES"
  | .blockEncTf => "BLOCK_ENC.TF"
  | .blockDecAes => "BLOCK_DEC.AES"
  | .blockDecTf => "BLOCK_DEC.TF"
  | .salsaProcess => "SALSA_PROCESS"
  | .ecbEncAes _ => "ECB_ENC.AES"
  | .ecbEncTf _ => "ECB_ENC.TF"
  | .ecbDecAes _ => "ECB_DEC.AES"
  | .ecbDecTf _ => "ECB_DEC.TF"
  | .cbcEncStartAes _ => "CBC_ENC_START.AES"
  | .cbcEncStartTf _ => "CBC_ENC_START.TF"
  | .cbcEncUpdate _ => "CBC_ENC_UPDATE"
  | .cbcEncFinal _ => "CBC_ENC_FINAL"
  | .cbcDecStartAes _ => "CBC_DEC_START.AES"
  | .cbcDecStartTf _ => "CBC_DEC_START.TF"
  | .cbcDecUpdate _ => "CBC_DEC_UPDATE"
  | .cbcDecFinal _ => "CBC_DEC_FINAL"
  | .cbcAbort => "CBC_ABORT"
  | .zeroize => "ZEROIZE"

/-- The word with these fields and every reserved bit 0 (R70). -/
def commandWord (op : BitVec 8) (sel : BitVec 2) (gen : BitVec 1) (len nlen : Nat) : Word :=
  Fields.word
    { op := op, sel := sel, gen := gen, rsvA := 0, len := BitVec.ofNat 7 len,
      rsvB := 0, nlen := BitVec.ofNat 7 nlen, rsvC := 0 }

/-- The encoder: the fixed-width patterns of R78. -/
def encode : Instr → Word
  | .keyLoadAes len => commandWord 0x01 0 0 len 0
  | .keyLoadTf len => commandWord 0x01 1 0 len 0
  | .keyLoadSalsa len nlen => commandWord 0x01 2 0 len nlen
  | .keyLoadSalsaGen len => commandWord 0x01 2 1 len 0
  | .blockEncAes => commandWord 0x02 0 0 0 0
  | .blockEncTf => commandWord 0x02 1 0 0 0
  | .blockDecAes => commandWord 0x03 0 0 0 0
  | .blockDecTf => commandWord 0x03 1 0 0 0
  | .salsaProcess => commandWord 0x04 2 0 0 0
  | .ecbEncAes len => commandWord 0x05 0 0 len 0
  | .ecbEncTf len => commandWord 0x05 1 0 len 0
  | .ecbDecAes len => commandWord 0x06 0 0 len 0
  | .ecbDecTf len => commandWord 0x06 1 0 len 0
  | .cbcEncStartAes gen => commandWord 0x08 0 (BitVec.ofBool gen) 0 0
  | .cbcEncStartTf gen => commandWord 0x08 1 (BitVec.ofBool gen) 0 0
  | .cbcEncUpdate len => commandWord 0x09 0 0 len 0
  | .cbcEncFinal len => commandWord 0x0A 0 0 len 0
  | .cbcDecStartAes len => commandWord 0x0C 0 0 len 0
  | .cbcDecStartTf len => commandWord 0x0C 1 0 len 0
  | .cbcDecUpdate len => commandWord 0x0D 0 0 len 0
  | .cbcDecFinal len => commandWord 0x0E 0 0 len 0
  | .cbcAbort => commandWord 0x0F 0 0 0 0
  | .zeroize => commandWord 0x10 0 0 0 0

/-- A row's bits as one number, bit 0 least significant; the bits above `nbits` are 0. A command is one word
of 32 bits (R70). -/
def tableWord (nbits w : Nat) : Word := BitVec.ofNat 32 (w % 2 ^ nbits)

/-- The command the decoder reads from a word of the opcode table. -/
def decodeTableWord (nbits w : Nat) : Option Instr :=
  match decode (tableWord nbits w) with
  | .ok i => some i
  | .error _ => none

end Sys2Proof
end

