-- ==== Sys2Proof/Config.lean ====
section
/-! DEFINITION. What the spec leaves to the platform and to the random source: free values, with no body. -/

namespace Sys2Proof

/-- The random source (20_memory.md R63): the byte it gives at each handshake, numbered from 0.
Nothing is known of any value, so what holds of the model holds for every answer (log entry 3). -/
opaque Config.rngByte : Nat → Byte

/-- CORE_BASE, the byte address where the platform places the register window (20_memory.md R50, R64). -/
opaque Config.coreBase : Nat

/-- What the bus gives a host access while `rst_n` is low in the n-th reset: whether it is the error response, and a word. The
spec makes it any value (70_reset_and_hazards.md R250, 93_implementation_defined.md; log entry 20). -/
opaque Config.busInReset : Nat → Bool × Word

end Sys2Proof
end

