-- ==== Sys2Proof/Machine/State.lean ====
section
/-! DEFINITION. The state of CORE (10_state.md R20) as plain data, the inputs that reach it, and reset. -/

namespace Sys2Proof.Machine

open Sys2Proof

/-- How a command ended (60_exceptions.md R220). -/
inductive ErrCode where
  | ok
  | configurationError
  | invalidLengthError
  | formatError
  | illegalCommand
  | sequenceError
  deriving DecidableEq, Repr

/-- The block cipher a stream or a mode command uses (10_state.md R33, 44_modes.md R190). -/
inductive CipherSel where
  | aes
  | tf
  deriving DecidableEq, Repr

/-- `strm`: no CBC stream, an encryption stream, a decryption stream (10_state.md R33). The value 3 is never written. -/
inductive StreamMode where
  | idle
  | enc
  | dec
  deriving DecidableEq, Repr

/-- One host access (00_scope.md R16): an offset in the 4096-byte window (20_memory.md R50), how many bytes wide
it is, and for a write its value. Only a width of 4 at a multiple of 4 is served (R54). -/
inductive Access where
  | read (off : BitVec 12) (width : Nat)
  | write (off : BitVec 12) (width : Nat) (value : Word)
  deriving DecidableEq, Repr

/-- What reaches the core from outside, one at a time (20_memory.md R59, 70_reset_and_hazards.md R250, R253). -/
inductive Input where
  /-- The host issues an access. -/
  | access (a : Access)
  /-- `rst_n` goes low between two accesses. -/
  | resetLow
  /-- `rst_n` goes low while this access is in progress, before its acknowledge (R253). -/
  | resetDuring (a : Access)
  /-- `rst_n` goes high. -/
  | resetHigh
  deriving DecidableEq, Repr

/-- The bus response to the last access, or what the bus gives while `rst_n` is low (20_memory.md R54 to R57, 60_exceptions.md R233). -/
inductive BusResponse where
  /-- No access has been answered since reset. -/
  | none
  /-- A write got OKAY. -/
  | writeOkay
  /-- A read got OKAY and this word. -/
  | readOkay (rdata : Word)
  /-- A write got the bus error response. -/
  | writeError
  /-- A read got the bus error response and this word. -/
  | readError (rdata : Word)
  /-- What the bus gives an access while `rst_n` is low, any value: the error response or not, and this word. The core has
  served none (70_reset_and_hazards.md R250, 93_implementation_defined.md). -/
  | inReset (error : Bool) (rdata : Word)
  deriving DecidableEq, Repr

/-- The whole state. The first nineteen fields are the architectural state of 10_state.md R20; the last five are the
model's own and carry the world outside the core (INVENTORY.md, State). -/
structure State where
  key        : Bytes 32
  nonce      : Bytes 8
  iv         : Bytes 16
  din        : Bytes 64
  dout       : Bytes 64
  err        : ErrCode
  outLen     : BitVec 7
  aesRk      : Vector Block 15
  aesKeyed   : Bool
  tfK        : Words 40
  tfS        : Words 4
  tfKeyed    : Bool
  sx         : Words 16
  salsaReady : Bool
  strm       : StreamMode
  strmSel    : CipherSel
  chain      : Block
  held       : Block
  heldValid  : Bool
  rstN       : Bool
  inputs     : List Input
  bus        : BusResponse
  rngDrawn   : Nat
  resets     : Nat
  deriving DecidableEq, Repr

/-- The machine right after reset (10_state.md R45): every architectural field at its reset value, `rst_n` high,
and no input waiting (log entries 1 to 3 and 20). -/
def State.reset : State where
  key        := zeros 32
  nonce      := zeros 8
  iv         := zeros 16
  din        := zeros 64
  dout       := zeros 64
  err        := .ok
  outLen     := 0
  aesRk      := Vector.replicate 15 (zeros 16)
  aesKeyed   := false
  tfK        := zeroWords 40
  tfS        := zeroWords 4
  tfKeyed    := false
  sx         := zeroWords 16
  salsaReady := false
  strm       := .idle
  strmSel    := .aes
  chain      := zeros 16
  held       := zeros 16
  heldValid  := false
  rstN       := true
  inputs     := []
  bus        := .none
  rngDrawn   := 0
  resets     := 0

/-- Nothing stops this machine: a command error is a result code (60_exceptions.md R220, R232) and a bus error is a
response (R233), both next states. No one raises a fault; the type is empty, which is safe. -/
inductive Fault where
  deriving DecidableEq, Repr

/-- Why an instruction has no meaning. -/
inductive Refusal where
  /-- Raised by an arm of exec whose instruction has no meaning yet; no arm does. Safe: the machine stops. -/
  | notModelled (mnemonic : String)
  deriving DecidableEq, Repr

/-- What a command or a step answers. -/
abbrev Result := Host.Outcome State Fault Refusal

end Sys2Proof.Machine
end

