-- ==== Sys2Proof/Machine/Operands.lean ====
section
/-! DEFINITION. Byte strings, words and their packing (00_scope.md R11 to R13), arithmetic in GF(2^8) (R14), and the
length checks a command makes of its operands (40_command.md R99). -/

namespace Sys2Proof.Machine

open Sys2Proof

/-- Byte i of a byte string, `s[i]` (R11); every use is in range. -/
def byteAt {n : Nat} (s : Bytes n) (i : Nat) : Byte := if h : i < n then s[i] else 0

/-- `s[i +: n]` (R11). -/
@[irreducible] def slice {m : Nat} (s : Bytes m) (i n : Nat) : Bytes n := Vector.ofFn fun j => byteAt s (i + j.val)

/-- `a XOR b`, bytewise (R11, 44_modes.md R191). -/
@[irreducible] def xorBytes {n : Nat} (a b : Bytes n) : Bytes n := Vector.ofFn fun i => a[i] ^^^ b[i]

/-- The first n bytes of a byte string of any length, filled with 0x00 when it is shorter (R11, `++ zeros`). -/
@[irreducible] def fillTo (n : Nat) (s : List Byte) : Bytes n := Vector.ofFn fun i => s.getD i.val 0

/-- `w[8j+7 : 8j]`, byte j of a word (R10, R13). -/
def wordByte (w : Word) (j : Nat) : Byte := w.extractLsb' (8 * j) 8

/-- The word of four bytes, the first the least significant (R13). -/
def wordOf (b0 b1 b2 b3 : Byte) : Word := b3 ++ b2 ++ b1 ++ b0

/-- `LE32(s, i)` (R13). -/
def le32 {n : Nat} (s : Bytes n) (i : Nat) : Word :=
  wordOf (byteAt s i) (byteAt s (i + 1)) (byteAt s (i + 2)) (byteAt s (i + 3))

/-- The words of a list, each by `LE32BYTES` (R13), one after another. -/
@[irreducible] def wordsToBytes {n : Nat} (m : Nat) (ws : Words n) : Bytes m :=
  Vector.ofFn fun i => if h : i.val / 4 < n then wordByte ws[i.val / 4] (i.val % 4) else 0

/-- A byte register with word k replaced: `R[4k+i] <- v[8i+7:8i]` for i = 0..3 (20_memory.md R52). -/
@[irreducible] def writeLane {n : Nat} (r : Bytes n) (k : Nat) (v : Word) : Bytes n :=
  Vector.ofFn fun j => if j.val / 4 = k then wordByte v (j.val % 4) else r[j]

/-- `ROL32(x, n)` (R12). -/
def rol32 (x : Word) (n : Nat) : Word := x.rotateLeft n

/-- `ROR32(x, n)` (R12). -/
def ror32 (x : Word) (n : Nat) : Word := x.rotateRight n

/-- Entry x of a 256-entry table printed in 16 rows: the row is the high nibble, the column the low nibble
(41_aes.md R112, 42_twofish.md R143). -/
def tableEntry (t : List (List Byte)) (x : Byte) : Byte := (t.getD (x.toNat / 16) []).getD (x.toNat % 16) 0

/-- The loop of GFMUL (R14) over the last `n` bits of `b`; `a` and `r` are kept in 9 bits. -/
def gfmulLoop (b : Byte) (P : BitVec 9) : Nat → BitVec 9 → BitVec 9 → BitVec 9
  | 0, _, r => r
  | n + 1, a, r =>
    let r' := if b.getLsbD (7 - n) then r ^^^ a else r
    let a2 := a <<< 1
    let a' := if a2.getLsbD 8 then a2 ^^^ P else a2
    gfmulLoop b P n a' r'

/-- `GFMUL(a, b, P)` (R14): the product of two bytes modulo the 9-bit polynomial `P`. -/
def gfmul (a b : Byte) (P : BitVec 9) : Byte := (gfmulLoop b P 8 (a.setWidth 9) 0).setWidth 8

/-- The XOR of all the bytes of a list. -/
def xorAll : List Byte → Byte
  | [] => 0
  | b :: bs => b ^^^ xorAll bs

/-- One row of a matrix times a vector over GF(2^8): `XOR over k of GFMUL(row[k], v[k], P)`. -/
def gfDot (P : BitVec 9) (row v : List Byte) : Byte := xorAll (List.zipWith (fun m x => gfmul m x P) row v)

/-- `KeyLenOK(len)` (40_command.md R99). -/
def keyLenOk (len : Nat) : Bool := decide (len = 32)

/-- `NonceLenOK(nlen)` (40_command.md R99). -/
def nonceLenOk (nlen : Nat) : Bool := decide (nlen = 8)

/-- `EcbLenOK(len)` (40_command.md R99). -/
def ecbLenOk (len : Nat) : Bool := decide (len % 16 = 0) && decide (len ≤ 64)

end Sys2Proof.Machine
end

