-- ==== Sys2Proof/Machine/Flags.lean ====
section
/-! DEFINITION. The host's views of the state: the error codes, STATUS and the Salsa20 counter registers
(10_state.md R28 to R36, 60_exceptions.md R220). CORE has no condition codes and no arithmetic flags (10_state.md R42). -/

namespace Sys2Proof.Machine

open Sys2Proof

/-- `code(E)`: the number of an error (60_exceptions.md R220). -/
def ErrCode.code : ErrCode → BitVec 4
  | .ok => 0
  | .configurationError => 1
  | .invalidLengthError => 2
  | .formatError => 3
  | .illegalCommand => 4
  | .sequenceError => 5

/-- The two bits of STREAM (10_state.md R33). -/
def StreamMode.code : StreamMode → BitVec 2
  | .idle => 0
  | .enc => 1
  | .dec => 2

/-- The bit STREAM_SEL (10_state.md R33). -/
def CipherSel.code : CipherSel → BitVec 1
  | .aes => 0
  | .tf => 1

/-- STATUS (10_state.md R28), most significant part first; bits [31:23], [11] and [7:4] read as 0. -/
def State.status (s : State) : Word :=
  0#9 ++ s.outLen ++ BitVec.ofBool s.heldValid ++ s.strmSel.code ++ s.strm.code ++ 0#1
    ++ BitVec.ofBool s.salsaReady ++ BitVec.ofBool s.tfKeyed ++ BitVec.ofBool s.aesKeyed ++ 0#4 ++ s.err.code

/-- SCTR0, the counter's low word; 0 when no Salsa20 state is loaded (10_state.md R36). -/
def State.sctr0 (s : State) : Word := if s.salsaReady then s.sx[8] else 0

/-- SCTR1, the counter's high word; 0 when no Salsa20 state is loaded (10_state.md R36). -/
def State.sctr1 (s : State) : Word := if s.salsaReady then s.sx[9] else 0

/-- The output of the last command, `DOUT[0 .. out_len-1]` (60_exceptions.md R220, 70_reset_and_hazards.md R256). -/
def State.output (s : State) : List Byte := s.dout.toList.take s.outLen.toNat

end Sys2Proof.Machine
end

