-- ==== Sys2Proof/Machine/Ops.lean ====
section
/-! DEFINITION. The operations every command shares (40_command.md R91 to R100): completing, raising an error, aborting
the stream, the context and stream checks, the draw from the random source, and clearing the core. -/

namespace Sys2Proof.Machine

open Sys2Proof

/-- `complete(out)` (40_command.md R93): DOUT is the output and then zeros. -/
def complete (out : List Byte) (s : State) : State :=
  { s with dout := fillTo 64 out, outLen := BitVec.ofNat 7 out.length, err := .ok }

/-- The CBC opcodes of the abort rule, the seven that 40_command.md R95 lists. The unassigned 0x0B is not one: the range
"0x08 to 0x0F" in 60_exceptions.md R221, which cites R95, is read as the range in which they lie (log entry 5). -/
def isCbcOp (op : BitVec 8) : Bool :=
  op == 0x08 || op == 0x09 || op == 0x0A || op == 0x0C || op == 0x0D || op == 0x0E || op == 0x0F

/-- The mode context closed: no stream, chain and held zero (40_command.md R95, R104). -/
def closeStream (s : State) : State :=
  { s with strm := .idle, strmSel := .aes, chain := zeros 16, held := zeros 16, heldValid := false }

/-- The result fields of an error (40_command.md R94). -/
def recordError (e : ErrCode) (s : State) : State :=
  { s with dout := zeros 64, outLen := 0, err := e }

/-- `raise E` in a command whose opcode is `op` (40_command.md R94, then R95): the ONE way a command fails. -/
def raiseError (op : BitVec 8) (e : ErrCode) (s : State) : State :=
  if isCbcOp op then closeStream (recordError e s) else recordError e s

/-- Is the cipher's context loaded (40_command.md R97)? -/
def State.keyed (s : State) : CipherSel → Bool
  | .aes => s.aesKeyed
  | .tf => s.tfKeyed

/-- A KEY_LOAD of the cipher of the open stream (40_command.md R98 (d)). -/
def State.rekeysStream (s : State) (c : CipherSel) : Bool := s.strm != .idle && s.strmSel == c

/-- `RNG(n)` (20_memory.md R63): the next n bytes of the random source. -/
@[irreducible] def rngBytes (n : Nat) (s : State) : Bytes n := Vector.ofFn fun i => Config.rngByte (s.rngDrawn + i.val)

/-- The state once n bytes have been drawn. -/
def afterDraw (n : Nat) (s : State) : State := { s with rngDrawn := s.rngDrawn + n }

/-- Every field of 10_state.md R20 at its reset value; what stands outside the core is kept. -/
def clearCore (s : State) : State :=
  { State.reset with rstN := s.rstN, inputs := s.inputs, bus := s.bus, rngDrawn := s.rngDrawn, resets := s.resets }

/-- KEY_LOAD of a block cipher (41_aes.md R126, 42_twofish.md R156): the checks, then `load` puts the key schedule in. -/
def loadBlockKey (c : CipherSel) (len : Nat) (load : State → State) (s : State) : State :=
  if s.rekeysStream c then raiseError 0x01 .sequenceError s
  else if !keyLenOk len then raiseError 0x01 .configurationError s
  else complete [] (load s)

/-- BLOCK_ENC and BLOCK_DEC (41_aes.md R127, R128, 42_twofish.md R157, R158): one block of DIN through the cipher. -/
def runBlock (op : BitVec 8) (c : CipherSel) (f : Block → Block) (s : State) : State :=
  if !s.keyed c then raiseError op .sequenceError s
  else complete (f (slice s.din 0 16)).toList s

end Sys2Proof.Machine
end

