-- ==== Sys2Proof/Machine/Aes.lean ====
section
/-! DEFINITION. AES-256 (41_aes.md): the state, the round operations, key expansion, the cipher and its inverse, and the
commands KEY_LOAD.AES, BLOCK_ENC.AES and BLOCK_DEC.AES. -/

namespace Sys2Proof.Machine

open Sys2Proof

/-- The AES state: `s[r][c]`, row r, column c (R110). -/
abbrev AesState := Vector (Vector Byte 4) 4

/-- The state whose byte at row r, column c is given. -/
def mkState (f : Fin 4 → Fin 4 → Byte) : AesState := Vector.ofFn fun r => Vector.ofFn fun c => f r c

/-- `ToState(b)[r][c] = b[r + 4c]` (R110). -/
def toState (b : Block) : AesState := mkState fun r c => b[r.val + 4 * c.val]

/-- `FromState(s)[r+4c] = s[r][c]` (R110). -/
def fromState (s : AesState) : Block := Vector.ofFn fun i => s[i.val % 4][i.val / 4]

/-- The table of SBOX (R112): the row is the high nibble, the column the low nibble. -/
def sboxTable : List (List Byte) :=
  [ [0x63, 0x7c, 0x77, 0x7b, 0xf2, 0x6b, 0x6f, 0xc5, 0x30, 0x01, 0x67, 0x2b, 0xfe, 0xd7, 0xab, 0x76],
    [0xca, 0x82, 0xc9, 0x7d, 0xfa, 0x59, 0x47, 0xf0, 0xad, 0xd4, 0xa2, 0xaf, 0x9c, 0xa4, 0x72, 0xc0],
    [0xb7, 0xfd, 0x93, 0x26, 0x36, 0x3f, 0xf7, 0xcc, 0x34, 0xa5, 0xe5, 0xf1, 0x71, 0xd8, 0x31, 0x15],
    [0x04, 0xc7, 0x23, 0xc3, 0x18, 0x96, 0x05, 0x9a, 0x07, 0x12, 0x80, 0xe2, 0xeb, 0x27, 0xb2, 0x75] ] ++
  [ [0x09, 0x83, 0x2c, 0x1a, 0x1b, 0x6e, 0x5a, 0xa0, 0x52, 0x3b, 0xd6, 0xb3, 0x29, 0xe3, 0x2f, 0x84],
    [0x53, 0xd1, 0x00, 0xed, 0x20, 0xfc, 0xb1, 0x5b, 0x6a, 0xcb, 0xbe, 0x39, 0x4a, 0x4c, 0x58, 0xcf],
    [0xd0, 0xef, 0xaa, 0xfb, 0x43, 0x4d, 0x33, 0x85, 0x45, 0xf9, 0x02, 0x7f, 0x50, 0x3c, 0x9f, 0xa8],
    [0x51, 0xa3, 0x40, 0x8f, 0x92, 0x9d, 0x38, 0xf5, 0xbc, 0xb6, 0xda, 0x21, 0x10, 0xff, 0xf3, 0xd2] ] ++
  [ [0xcd, 0x0c, 0x13, 0xec, 0x5f, 0x97, 0x44, 0x17, 0xc4, 0xa7, 0x7e, 0x3d, 0x64, 0x5d, 0x19, 0x73],
    [0x60, 0x81, 0x4f, 0xdc, 0x22, 0x2a, 0x90, 0x88, 0x46, 0xee, 0xb8, 0x14, 0xde, 0x5e, 0x0b, 0xdb],
    [0xe0, 0x32, 0x3a, 0x0a, 0x49, 0x06, 0x24, 0x5c, 0xc2, 0xd3, 0xac, 0x62, 0x91, 0x95, 0xe4, 0x79],
    [0xe7, 0xc8, 0x37, 0x6d, 0x8d, 0xd5, 0x4e, 0xa9, 0x6c, 0x56, 0xf4, 0xea, 0x65, 0x7a, 0xae, 0x08] ] ++
  [ [0xba, 0x78, 0x25, 0x2e, 0x1c, 0xa6, 0xb4, 0xc6, 0xe8, 0xdd, 0x74, 0x1f, 0x4b, 0xbd, 0x8b, 0x8a],
    [0x70, 0x3e, 0xb5, 0x66, 0x48, 0x03, 0xf6, 0x0e, 0x61, 0x35, 0x57, 0xb9, 0x86, 0xc1, 0x1d, 0x9e],
    [0xe1, 0xf8, 0x98, 0x11, 0x69, 0xd9, 0x8e, 0x94, 0x9b, 0x1e, 0x87, 0xe9, 0xce, 0x55, 0x28, 0xdf],
    [0x8c, 0xa1, 0x89, 0x0d, 0xbf, 0xe6, 0x42, 0x68, 0x41, 0x99, 0x2d, 0x0f, 0xb0, 0x54, 0xbb, 0x16] ]

/-- The table of INV_SBOX (R114). -/
def invSboxTable : List (List Byte) :=
  [ [0x52, 0x09, 0x6a, 0xd5, 0x30, 0x36, 0xa5, 0x38, 0xbf, 0x40, 0xa3, 0x9e, 0x81, 0xf3, 0xd7, 0xfb],
    [0x7c, 0xe3, 0x39, 0x82, 0x9b, 0x2f, 0xff, 0x87, 0x34, 0x8e, 0x43, 0x44, 0xc4, 0xde, 0xe9, 0xcb],
    [0x54, 0x7b, 0x94, 0x32, 0xa6, 0xc2, 0x23, 0x3d, 0xee, 0x4c, 0x95, 0x0b, 0x42, 0xfa, 0xc3, 0x4e],
    [0x08, 0x2e, 0xa1, 0x66, 0x28, 0xd9, 0x24, 0xb2, 0x76, 0x5b, 0xa2, 0x49, 0x6d, 0x8b, 0xd1, 0x25] ] ++
  [ [0x72, 0xf8, 0xf6, 0x64, 0x86, 0x68, 0x98, 0x16, 0xd4, 0xa4, 0x5c, 0xcc, 0x5d, 0x65, 0xb6, 0x92],
    [0x6c, 0x70, 0x48, 0x50, 0xfd, 0xed, 0xb9, 0xda, 0x5e, 0x15, 0x46, 0x57, 0xa7, 0x8d, 0x9d, 0x84],
    [0x90, 0xd8, 0xab, 0x00, 0x8c, 0xbc, 0xd3, 0x0a, 0xf7, 0xe4, 0x58, 0x05, 0xb8, 0xb3, 0x45, 0x06],
    [0xd0, 0x2c, 0x1e, 0x8f, 0xca, 0x3f, 0x0f, 0x02, 0xc1, 0xaf, 0xbd, 0x03, 0x01, 0x13, 0x8a, 0x6b] ] ++
  [ [0x3a, 0x91, 0x11, 0x41, 0x4f, 0x67, 0xdc, 0xea, 0x97, 0xf2, 0xcf, 0xce, 0xf0, 0xb4, 0xe6, 0x73],
    [0x96, 0xac, 0x74, 0x22, 0xe7, 0xad, 0x35, 0x85, 0xe2, 0xf9, 0x37, 0xe8, 0x1c, 0x75, 0xdf, 0x6e],
    [0x47, 0xf1, 0x1a, 0x71, 0x1d, 0x29, 0xc5, 0x89, 0x6f, 0xb7, 0x62, 0x0e, 0xaa, 0x18, 0xbe, 0x1b],
    [0xfc, 0x56, 0x3e, 0x4b, 0xc6, 0xd2, 0x79, 0x20, 0x9a, 0xdb, 0xc0, 0xfe, 0x78, 0xcd, 0x5a, 0xf4] ] ++
  [ [0x1f, 0xdd, 0xa8, 0x33, 0x88, 0x07, 0xc7, 0x31, 0xb1, 0x12, 0x10, 0x59, 0x27, 0x80, 0xec, 0x5f],
    [0x60, 0x51, 0x7f, 0xa9, 0x19, 0xb5, 0x4a, 0x0d, 0x2d, 0xe5, 0x7a, 0x9f, 0x93, 0xc9, 0x9c, 0xef],
    [0xa0, 0xe0, 0x3b, 0x4d, 0xae, 0x2a, 0xf5, 0xb0, 0xc8, 0xeb, 0xbb, 0x3c, 0x83, 0x53, 0x99, 0x61],
    [0x17, 0x2b, 0x04, 0x7e, 0xba, 0x77, 0xd6, 0x26, 0xe1, 0x69, 0x14, 0x63, 0x55, 0x21, 0x0c, 0x7d] ]

/-- SBOX (R112). -/
def sbox (x : Byte) : Byte := tableEntry sboxTable x

/-- INV_SBOX (R114). -/
def invSbox (x : Byte) : Byte := tableEntry invSboxTable x

/-- SubBytes (R113). -/
def subBytes (s : AesState) : AesState := mkState fun r c => sbox s[r][c]

/-- InvSubBytes (R114). -/
def invSubBytes (s : AesState) : AesState := mkState fun r c => invSbox s[r][c]

/-- ShiftRows: `s[r][(c + r) mod 4]` (R115). -/
def shiftRows (s : AesState) : AesState := mkState fun r c => s[r][(c.val + r.val) % 4]

/-- InvShiftRows: the byte at column `(c + r) mod 4` of row r is `s[r][c]` (R116), that is, column c takes
`s[r][(c - r) mod 4]`. -/
def invShiftRows (s : AesState) : AesState := mkState fun r c => s[r][(c.val + 4 - r.val) % 4]

/-- The matrix MIX of MixColumns (R117). -/
def mixMatrix : List (List Byte) :=
  [ [0x02, 0x03, 0x01, 0x01],
    [0x01, 0x02, 0x03, 0x01],
    [0x01, 0x01, 0x02, 0x03],
    [0x03, 0x01, 0x01, 0x02] ]

/-- The matrix of InvMixColumns (R118). -/
def invMixMatrix : List (List Byte) :=
  [ [0x0e, 0x0b, 0x0d, 0x09],
    [0x09, 0x0e, 0x0b, 0x0d],
    [0x0d, 0x09, 0x0e, 0x0b],
    [0x0b, 0x0d, 0x09, 0x0e] ]

/-- Every column times a matrix over GF(2^8)/0x11B (R117). -/
def mulColumns (m : List (List Byte)) (s : AesState) : AesState :=
  mkState fun r c => gfDot 0x11B (m.getD r.val []) [s[0][c], s[1][c], s[2][c], s[3][c]]

/-- MixColumns (R117). -/
def mixColumns (s : AesState) : AesState := mulColumns mixMatrix s

/-- InvMixColumns (R118). -/
def invMixColumns (s : AesState) : AesState := mulColumns invMixMatrix s

/-- AddRoundKey (R119). -/
def addRoundKey (s : AesState) (rk : Block) : AesState := mkState fun r c => s[r][c] ^^^ rk[r.val + 4 * c.val]

/-- RotWord (R120). -/
def rotWord (w : Bytes 4) : Bytes 4 := #v[w[1], w[2], w[3], w[0]]

/-- SubWord (R120). -/
def subWord (w : Bytes 4) : Bytes 4 := #v[sbox w[0], sbox w[1], sbox w[2], sbox w[3]]

/-- `Rcon[j]`, j = 1..7 (R120). -/
def rcon (j : Nat) : Bytes 4 :=
  #v[([0x01, 0x02, 0x04, 0x08, 0x10, 0x20, 0x40] : List Byte).getD (j - 1) 0, 0, 0, 0]

/-- Word i of the key expansion, from the words before it (R121). -/
def keyWord (K : Bytes 32) (i : Nat) (w : List (Bytes 4)) : Bytes 4 :=
  if i < 8 then slice K (4 * i) 4
  else
    let t := w.getD (i - 1) (zeros 4)
    let t' :=
      if i % 8 = 0 then xorBytes (subWord (rotWord t)) (rcon (i / 8))
      else if i % 8 = 4 then subWord t
      else t
    xorBytes (w.getD (i - 8) (zeros 4)) t'

/-- The first n words of KeyExpansion, in order (R121). -/
def keyWords (K : Bytes 32) : Nat → List (Bytes 4)
  | 0 => []
  | n + 1 =>
    let w := keyWords K n
    w ++ [keyWord K n w]

/-- `aes_rk[r] = w[4r] ++ w[4r+1] ++ w[4r+2] ++ w[4r+3]`, r = 0..14 (R122). -/
@[irreducible] def aesRoundKeys (K : Bytes 32) : Vector Block 15 :=
  let w := keyWords K 60
  Vector.ofFn fun r => Vector.ofFn fun i => byteAt (w.getD (4 * r.val + i.val / 4) (zeros 4)) (i.val % 4)

/-- Round key r, r = 0..14 (R122). -/
def roundKey (rk : Vector Block 15) (r : Nat) : Block := if h : r < 15 then rk[r] else zeros 16

/-- The full rounds 1..n, in that order (R123, R124). -/
def aesRounds (rk : Vector Block 15) : Nat → AesState → AesState
  | 0, s => s
  | n + 1, s => addRoundKey (mixColumns (shiftRows (subBytes (aesRounds rk n s)))) (roundKey rk (n + 1))

/-- AES_Cipher (R124). -/
@[irreducible] def aesCipher (rk : Vector Block 15) (b : Block) : Block :=
  let s := aesRounds rk 13 (addRoundKey (toState b) (roundKey rk 0))
  fromState (addRoundKey (shiftRows (subBytes s)) (roundKey rk 14))

/-- The inverse rounds n..1, in that order (R125). -/
def aesInvRounds (rk : Vector Block 15) : Nat → AesState → AesState
  | 0, s => s
  | n + 1, s =>
    aesInvRounds rk n (invMixColumns (addRoundKey (invSubBytes (invShiftRows s)) (roundKey rk (n + 1))))

/-- AES_InvCipher (R125). -/
@[irreducible] def aesInvCipher (rk : Vector Block 15) (b : Block) : Block :=
  let s := aesInvRounds rk 13 (addRoundKey (toState b) (roundKey rk 14))
  fromState (addRoundKey (invSubBytes (invShiftRows s)) (roundKey rk 0))

/-- The AES context loaded from KEY (R126). -/
def loadAes (s : State) : State := { s with aesRk := aesRoundKeys s.key, aesKeyed := true }

/-- KEY_LOAD.AES (R126). -/
def execKeyLoadAes (len : Nat) (s : State) : Result := .next (loadBlockKey .aes len loadAes s)

/-- BLOCK_ENC.AES (R127). -/
def execBlockEncAes (s : State) : Result := .next (runBlock 0x02 .aes (aesCipher s.aesRk) s)

/-- BLOCK_DEC.AES (R128). -/
def execBlockDecAes (s : State) : Result := .next (runBlock 0x03 .aes (aesInvCipher s.aesRk) s)

end Sys2Proof.Machine
end

