-- ==== Sys2Proof/Machine/Control.lean ====
section
/-! DEFINITION. The two commands that belong to no cipher (40_command.md): CBC_ABORT and ZEROIZE. -/

namespace Sys2Proof.Machine

open Sys2Proof

/-- CBC_ABORT (R104). -/
def execCbcAbort (s : State) : Result := .next (complete [] (closeStream s))

/-- ZEROIZE (R103). -/
def execZeroize (s : State) : Result := .next (complete [] (clearCore s))

end Sys2Proof.Machine
end

