-- ==== Sys2Proof/Machine/Twofish.lean ====
section
/-! DEFINITION. Twofish-256 (42_twofish.md): the permutations q0 and q1, MDS and RS, h and g, the key schedule, encryption
and decryption, and the commands KEY_LOAD.TF, BLOCK_ENC.TF and BLOCK_DEC.TF. -/

namespace Sys2Proof.Machine

open Sys2Proof

/-- The q0 table (R143). -/
def q0Table : List (List Byte) :=
  [ [0xa9, 0x67, 0xb3, 0xe8, 0x04, 0xfd, 0xa3, 0x76, 0x9a, 0x92, 0x80, 0x78, 0xe4, 0xdd, 0xd1, 0x38],
    [0x0d, 0xc6, 0x35, 0x98, 0x18, 0xf7, 0xec, 0x6c, 0x43, 0x75, 0x37, 0x26, 0xfa, 0x13, 0x94, 0x48],
    [0xf2, 0xd0, 0x8b, 0x30, 0x84, 0x54, 0xdf, 0x23, 0x19, 0x5b, 0x3d, 0x59, 0xf3, 0xae, 0xa2, 0x82],
    [0x63, 0x01, 0x83, 0x2e, 0xd9, 0x51, 0x9b, 0x7c, 0xa6, 0xeb, 0xa5, 0xbe, 0x16, 0x0c, 0xe3, 0x61] ] ++
  [ [0xc0, 0x8c, 0x3a, 0xf5, 0x73, 0x2c, 0x25, 0x0b, 0xbb, 0x4e, 0x89, 0x6b, 0x53, 0x6a, 0xb4, 0xf1],
    [0xe1, 0xe6, 0xbd, 0x45, 0xe2, 0xf4, 0xb6, 0x66, 0xcc, 0x95, 0x03, 0x56, 0xd4, 0x1c, 0x1e, 0xd7],
    [0xfb, 0xc3, 0x8e, 0xb5, 0xe9, 0xcf, 0xbf, 0xba, 0xea, 0x77, 0x39, 0xaf, 0x33, 0xc9, 0x62, 0x71],
    [0x81, 0x79, 0x09, 0xad, 0x24, 0xcd, 0xf9, 0xd8, 0xe5, 0xc5, 0xb9, 0x4d, 0x44, 0x08, 0x86, 0xe7] ] ++
  [ [0xa1, 0x1d, 0xaa, 0xed, 0x06, 0x70, 0xb2, 0xd2, 0x41, 0x7b, 0xa0, 0x11, 0x31, 0xc2, 0x27, 0x90],
    [0x20, 0xf6, 0x60, 0xff, 0x96, 0x5c, 0xb1, 0xab, 0x9e, 0x9c, 0x52, 0x1b, 0x5f, 0x93, 0x0a, 0xef],
    [0x91, 0x85, 0x49, 0xee, 0x2d, 0x4f, 0x8f, 0x3b, 0x47, 0x87, 0x6d, 0x46, 0xd6, 0x3e, 0x69, 0x64],
    [0x2a, 0xce, 0xcb, 0x2f, 0xfc, 0x97, 0x05, 0x7a, 0xac, 0x7f, 0xd5, 0x1a, 0x4b, 0x0e, 0xa7, 0x5a] ] ++
  [ [0x28, 0x14, 0x3f, 0x29, 0x88, 0x3c, 0x4c, 0x02, 0xb8, 0xda, 0xb0, 0x17, 0x55, 0x1f, 0x8a, 0x7d],
    [0x57, 0xc7, 0x8d, 0x74, 0xb7, 0xc4, 0x9f, 0x72, 0x7e, 0x15, 0x22, 0x12, 0x58, 0x07, 0x99, 0x34],
    [0x6e, 0x50, 0xde, 0x68, 0x65, 0xbc, 0xdb, 0xf8, 0xc8, 0xa8, 0x2b, 0x40, 0xdc, 0xfe, 0x32, 0xa4],
    [0xca, 0x10, 0x21, 0xf0, 0xd3, 0x5d, 0x0f, 0x00, 0x6f, 0x9d, 0x36, 0x42, 0x4a, 0x5e, 0xc1, 0xe0] ]

/-- The q1 table (R144). -/
def q1Table : List (List Byte) :=
  [ [0x75, 0xf3, 0xc6, 0xf4, 0xdb, 0x7b, 0xfb, 0xc8, 0x4a, 0xd3, 0xe6, 0x6b, 0x45, 0x7d, 0xe8, 0x4b],
    [0xd6, 0x32, 0xd8, 0xfd, 0x37, 0x71, 0xf1, 0xe1, 0x30, 0x0f, 0xf8, 0x1b, 0x87, 0xfa, 0x06, 0x3f],
    [0x5e, 0xba, 0xae, 0x5b, 0x8a, 0x00, 0xbc, 0x9d, 0x6d, 0xc1, 0xb1, 0x0e, 0x80, 0x5d, 0xd2, 0xd5],
    [0xa0, 0x84, 0x07, 0x14, 0xb5, 0x90, 0x2c, 0xa3, 0xb2, 0x73, 0x4c, 0x54, 0x92, 0x74, 0x36, 0x51] ] ++
  [ [0x38, 0xb0, 0xbd, 0x5a, 0xfc, 0x60, 0x62, 0x96, 0x6c, 0x42, 0xf7, 0x10, 0x7c, 0x28, 0x27, 0x8c],
    [0x13, 0x95, 0x9c, 0xc7, 0x24, 0x46, 0x3b, 0x70, 0xca, 0xe3, 0x85, 0xcb, 0x11, 0xd0, 0x93, 0xb8],
    [0xa6, 0x83, 0x20, 0xff, 0x9f, 0x77, 0xc3, 0xcc, 0x03, 0x6f, 0x08, 0xbf, 0x40, 0xe7, 0x2b, 0xe2],
    [0x79, 0x0c, 0xaa, 0x82, 0x41, 0x3a, 0xea, 0xb9, 0xe4, 0x9a, 0xa4, 0x97, 0x7e, 0xda, 0x7a, 0x17] ] ++
  [ [0x66, 0x94, 0xa1, 0x1d, 0x3d, 0xf0, 0xde, 0xb3, 0x0b, 0x72, 0xa7, 0x1c, 0xef, 0xd1, 0x53, 0x3e],
    [0x8f, 0x33, 0x26, 0x5f, 0xec, 0x76, 0x2a, 0x49, 0x81, 0x88, 0xee, 0x21, 0xc4, 0x1a, 0xeb, 0xd9],
    [0xc5, 0x39, 0x99, 0xcd, 0xad, 0x31, 0x8b, 0x01, 0x18, 0x23, 0xdd, 0x1f, 0x4e, 0x2d, 0xf9, 0x48],
    [0x4f, 0xf2, 0x65, 0x8e, 0x78, 0x5c, 0x58, 0x19, 0x8d, 0xe5, 0x98, 0x57, 0x67, 0x7f, 0x05, 0x64] ] ++
  [ [0xaf, 0x63, 0xb6, 0xfe, 0xf5, 0xb7, 0x3c, 0xa5, 0xce, 0xe9, 0x68, 0x44, 0xe0, 0x4d, 0x43, 0x69],
    [0x29, 0x2e, 0xac, 0x15, 0x59, 0xa8, 0x0a, 0x9e, 0x6e, 0x47, 0xdf, 0x34, 0x35, 0x6a, 0xcf, 0xdc],
    [0x22, 0xc9, 0xc0, 0x9b, 0x89, 0xd4, 0xed, 0xab, 0x12, 0xa2, 0x0d, 0x52, 0xbb, 0x02, 0x2f, 0xa9],
    [0xd7, 0x61, 0x1e, 0xb4, 0x50, 0x04, 0xf6, 0xc2, 0x16, 0x25, 0x86, 0x56, 0x55, 0x09, 0xbe, 0x91] ]

/-- q0 (R143). -/
def q0 (x : Byte) : Byte := tableEntry q0Table x

/-- q1 (R144). -/
def q1 (x : Byte) : Byte := tableEntry q1Table x

/-- `ROR4(v, 1)` (R142). -/
def ror4 (v : BitVec 4) : BitVec 4 := v.rotateRight 1

/-- Entry x of a nibble table (R142). -/
def nibble (t : List (BitVec 4)) (x : BitVec 4) : BitVec 4 := t.getD x.toNat 0

/-- The construction of q0 and q1 from four nibble tables (R142). -/
def qOf (t0 t1 t2 t3 : List (BitVec 4)) (x : Byte) : Byte :=
  let a0 := x.extractLsb' 4 4
  let b0 := x.extractLsb' 0 4
  let a1 := a0 ^^^ b0
  let b1 := a0 ^^^ ror4 b0 ^^^ (8 * a0)
  let a2 := nibble t0 a1
  let b2 := nibble t1 b1
  let a3 := a2 ^^^ b2
  let b3 := a2 ^^^ ror4 b2 ^^^ (8 * a2)
  let a4 := nibble t2 a3
  let b4 := nibble t3 b3
  b4 ++ a4

/-- q0 by its construction (R142); R143's table is what it gives. -/
def q0Of (x : Byte) : Byte :=
  qOf [0x8, 0x1, 0x7, 0xd, 0x6, 0xf, 0x3, 0x2, 0x0, 0xb, 0x5, 0x9, 0xe, 0xc, 0xa, 0x4]
    [0xe, 0xc, 0xb, 0x8, 0x1, 0x2, 0x3, 0x5, 0xf, 0x4, 0xa, 0x6, 0x7, 0x0, 0x9, 0xd]
    [0xb, 0xa, 0x5, 0xe, 0x6, 0xd, 0x9, 0x0, 0xc, 0x8, 0xf, 0x3, 0x2, 0x4, 0x7, 0x1]
    [0xd, 0x7, 0xf, 0x4, 0x1, 0x2, 0x6, 0xe, 0x9, 0xb, 0x3, 0x0, 0x8, 0x5, 0xc, 0xa] x

/-- q1 by its construction (R142); R144's table is what it gives. -/
def q1Of (x : Byte) : Byte :=
  qOf [0x2, 0x8, 0xb, 0xd, 0xf, 0x7, 0x6, 0xe, 0x3, 0x1, 0x9, 0x4, 0x0, 0xa, 0xc, 0x5]
    [0x1, 0xe, 0x2, 0xb, 0x4, 0xc, 0x3, 0x7, 0x6, 0xd, 0xa, 0x5, 0xf, 0x9, 0x0, 0x8]
    [0x4, 0xc, 0x7, 0x5, 0x1, 0x6, 0x9, 0xa, 0x0, 0xe, 0xd, 0x8, 0x2, 0xb, 0x3, 0xf]
    [0xb, 0x9, 0x5, 0x1, 0xc, 0x3, 0xd, 0xe, 0x6, 0x4, 0x7, 0xf, 0x2, 0x0, 0x8, 0xa] x

/-- The MDS matrix (R145). -/
def mdsMatrix : List (List Byte) :=
  [ [0x01, 0xEF, 0x5B, 0x5B],
    [0x5B, 0xEF, 0xEF, 0x01],
    [0xEF, 0x5B, 0x01, 0xEF],
    [0xEF, 0x01, 0xEF, 0x5B] ]

/-- The RS matrix (R146). -/
def rsMatrix : List (List Byte) :=
  [ [0x01, 0xA4, 0x55, 0x87, 0x5A, 0x58, 0xDB, 0x9E],
    [0xA4, 0x56, 0x82, 0xF3, 0x1E, 0xC6, 0x68, 0xE5],
    [0x02, 0xA1, 0xFC, 0xC1, 0x47, 0xAE, 0x3D, 0x19],
    [0xA4, 0x55, 0x87, 0x5A, 0x58, 0xDB, 0x9E, 0x03] ]

/-- Four rows of a matrix times a vector, as the bytes of a word, row 0 the least significant (R145, R146). -/
def matrixWord (P : BitVec 9) (m : List (List Byte)) (v : List Byte) : Word :=
  wordOf (gfDot P (m.getD 0 []) v) (gfDot P (m.getD 1 []) v) (gfDot P (m.getD 2 []) v) (gfDot P (m.getD 3 []) v)

/-- `MDSMul(y)` (R145). -/
def mdsMul (y0 y1 y2 y3 : Byte) : Word := matrixWord 0x169 mdsMatrix [y0, y1, y2, y3]

/-- `S_i`, from the key bytes 8i .. 8i+7 (R146). -/
def rsWord (K : Bytes 32) (i : Nat) : Word := matrixWord 0x14D rsMatrix (slice K (8 * i) 8).toList

/-- `h(X, L)` for the four words of a 256-bit key (R147). -/
def tfH (X : Word) (L : Words 4) : Word :=
  let l := fun (k j : Nat) => if h : k < 4 then wordByte L[k] j else 0
  -- stage for a 256-bit key
  let y0 := q1 (wordByte X 0) ^^^ l 3 0
  let y1 := q0 (wordByte X 1) ^^^ l 3 1
  let y2 := q0 (wordByte X 2) ^^^ l 3 2
  let y3 := q1 (wordByte X 3) ^^^ l 3 3
  -- stage for three or more words
  let y0 := q1 y0 ^^^ l 2 0
  let y1 := q1 y1 ^^^ l 2 1
  let y2 := q0 y2 ^^^ l 2 2
  let y3 := q0 y3 ^^^ l 2 3
  -- common stages
  let y0 := q1 (q0 (q0 y0 ^^^ l 1 0) ^^^ l 0 0)
  let y1 := q0 (q0 (q1 y1 ^^^ l 1 1) ^^^ l 0 1)
  let y2 := q1 (q1 (q0 y2 ^^^ l 1 2) ^^^ l 0 2)
  let y3 := q0 (q1 (q1 y3 ^^^ l 1 3) ^^^ l 0 3)
  mdsMul y0 y1 y2 y3

/-- `g(X) = h(X, (S_3, S_2, S_1, S_0))` (R148). -/
def tfG (S : Words 4) (X : Word) : Word := tfH X #v[S[3], S[2], S[1], S[0]]

/-- The key word `M[j] = LE32(K, 4j)` (R141). -/
def tfM (K : Bytes 32) (j : Nat) : Word := le32 K (4 * j)

/-- `Me`, the even words (R141). -/
def tfMe (K : Bytes 32) : Words 4 := #v[tfM K 0, tfM K 2, tfM K 4, tfM K 6]

/-- `Mo`, the odd words (R141). -/
def tfMo (K : Bytes 32) : Words 4 := #v[tfM K 1, tfM K 3, tfM K 5, tfM K 7]

/-- The Pseudo-Hadamard Transform (R151). -/
def pht (a b : Word) : Word × Word := (a + b, a + 2 * b)

/-- The pair of subkeys `(tf_K[2i], tf_K[2i+1])` (R152). -/
def subkeyPair (K : Bytes 32) (i : Nat) : Word × Word :=
  let rho : Word := 0x01010101
  let a := tfH (BitVec.ofNat 32 (2 * i) * rho) (tfMe K)
  let b := rol32 (tfH (BitVec.ofNat 32 (2 * i + 1) * rho) (tfMo K)) 8
  let p := pht a b
  (p.1, rol32 p.2 9)

/-- `tf_K[0..39]` (R152). -/
@[irreducible] def tfSubkeys (K : Bytes 32) : Words 40 :=
  Vector.ofFn fun j => if j.val % 2 = 0 then (subkeyPair K (j.val / 2)).1 else (subkeyPair K (j.val / 2)).2

/-- `tf_S[0..3]` (R150). -/
@[irreducible] def tfSWords (K : Bytes 32) : Words 4 := #v[rsWord K 0, rsWord K 1, rsWord K 2, rsWord K 3]

/-- Subkey word j, j = 0..39. -/
def subkey (K : Words 40) (j : Nat) : Word := if h : j < 40 then K[j] else 0

/-- The F function of round r (R153). -/
def tfF (K : Words 40) (S : Words 4) (R0 R1 : Word) (r : Nat) : Word × Word :=
  let t0 := tfG S R0
  let t1 := tfG S (rol32 R1 8)
  (t0 + t1 + subkey K (2 * r + 8), t0 + 2 * t1 + subkey K (2 * r + 9))

/-- One pass of the loop of TF_Encrypt (R154). -/
def tfEncRound (K : Words 40) (S : Words 4) (r : Nat) (R : Words 4) : Words 4 :=
  let f := tfF K S R[0] R[1] r
  #v[ror32 (R[2] ^^^ f.1) 1, rol32 R[3] 1 ^^^ f.2, R[0], R[1]]

/-- The rounds 0..n-1, in that order (R154). -/
def tfEncRounds (K : Words 40) (S : Words 4) : Nat → Words 4 → Words 4
  | 0, R => R
  | n + 1, R => tfEncRound K S n (tfEncRounds K S n R)

/-- The four words of a block (R140). -/
def blockWords (b : Block) : Words 4 := #v[le32 b 0, le32 b 4, le32 b 8, le32 b 12]

/-- TF_Encrypt (R154). -/
@[irreducible] def tfEncrypt (K : Words 40) (S : Words 4) (b : Block) : Block :=
  let P := blockWords b
  let R := tfEncRounds K S 16
    #v[P[0] ^^^ subkey K 0, P[1] ^^^ subkey K 1, P[2] ^^^ subkey K 2, P[3] ^^^ subkey K 3]
  wordsToBytes 16
    (#v[R[2] ^^^ subkey K 4, R[3] ^^^ subkey K 5, R[0] ^^^ subkey K 6, R[1] ^^^ subkey K 7] : Words 4)

/-- One pass of the loop of TF_Decrypt (R155). -/
def tfDecRound (K : Words 40) (S : Words 4) (r : Nat) (R : Words 4) : Words 4 :=
  let f := tfF K S R[2] R[3] r
  #v[R[2], R[3], rol32 R[0] 1 ^^^ f.1, ror32 (R[1] ^^^ f.2) 1]

/-- The rounds n-1..0, in that order (R155). -/
def tfDecRounds (K : Words 40) (S : Words 4) : Nat → Words 4 → Words 4
  | 0, R => R
  | n + 1, R => tfDecRounds K S n (tfDecRound K S n R)

/-- TF_Decrypt (R155). -/
@[irreducible] def tfDecrypt (K : Words 40) (S : Words 4) (b : Block) : Block :=
  let W := blockWords b
  let C : Words 4 :=
    #v[W[0] ^^^ subkey K 4, W[1] ^^^ subkey K 5, W[2] ^^^ subkey K 6, W[3] ^^^ subkey K 7]
  let R := tfDecRounds K S 16 #v[C[2], C[3], C[0], C[1]]
  wordsToBytes 16
    (#v[R[0] ^^^ subkey K 0, R[1] ^^^ subkey K 1, R[2] ^^^ subkey K 2, R[3] ^^^ subkey K 3] : Words 4)

/-- The Twofish context loaded from KEY (R156). -/
def loadTf (s : State) : State := { s with tfS := tfSWords s.key, tfK := tfSubkeys s.key, tfKeyed := true }

/-- KEY_LOAD.TF (R156). -/
def execKeyLoadTf (len : Nat) (s : State) : Result := .next (loadBlockKey .tf len loadTf s)

/-- BLOCK_ENC.TF (R157). -/
def execBlockEncTf (s : State) : Result := .next (runBlock 0x02 .tf (tfEncrypt s.tfK s.tfS) s)

/-- BLOCK_DEC.TF (R158). -/
def execBlockDecTf (s : State) : Result := .next (runBlock 0x03 .tf (tfDecrypt s.tfK s.tfS) s)

end Sys2Proof.Machine
end

