-- ==== Sys2Proof/Machine/Modes.lean ====
section
/-! DEFINITION. The mode controllers (44_modes.md): the block cipher of a mode (40_command.md R106), ECB, padding, and the CBC
encryption and decryption streams. -/

namespace Sys2Proof.Machine

open Sys2Proof

/-- `BlockEncrypt(sel, b)` (40_command.md R106). -/
def blockEncrypt (s : State) : CipherSel → Block → Block
  | .aes => aesCipher s.aesRk
  | .tf => tfEncrypt s.tfK s.tfS

/-- `BlockDecrypt(sel, b)` (40_command.md R106). -/
def blockDecrypt (s : State) : CipherSel → Block → Block
  | .aes => aesInvCipher s.aesRk
  | .tf => tfDecrypt s.tfK s.tfS

/-- The first n blocks of a buffer, each transformed independently (R192). -/
def ecbBlocks (f : Block → Block) : Nat → List Byte → List Byte
  | 0, _ => []
  | n + 1, buf => (f (fillTo 16 (buf.take 16))).toList ++ ecbBlocks f n (buf.drop 16)

/-- `EcbEncrypt` and `EcbDecrypt` over a buffer whose length is a multiple of 16 (R192). -/
def ecbBuffer (f : Block → Block) (buf : List Byte) : List Byte := ecbBlocks f (buf.length / 16) buf

/-- `DIN[0 +: len]` as a buffer. -/
def dinBuffer (s : State) (len : Nat) : List Byte := s.din.toList.take len

/-- ECB_ENC and ECB_DEC: the checks, then the buffer (R193, R194). -/
def runEcb (op : BitVec 8) (c : CipherSel) (f : Block → Block) (len : Nat) (s : State) : State :=
  if !s.keyed c then raiseError op .sequenceError s
  else if !ecbLenOk len then raiseError op .invalidLengthError s
  else complete (ecbBuffer f (dinBuffer s len)) s

/-- ECB_ENC.AES (R193). -/
def execEcbEncAes (len : Nat) (s : State) : Result := .next (runEcb 0x05 .aes (blockEncrypt s .aes) len s)

/-- ECB_ENC.TF (R193). -/
def execEcbEncTf (len : Nat) (s : State) : Result := .next (runEcb 0x05 .tf (blockEncrypt s .tf) len s)

/-- ECB_DEC.AES (R194). -/
def execEcbDecAes (len : Nat) (s : State) : Result := .next (runEcb 0x06 .aes (blockDecrypt s .aes) len s)

/-- ECB_DEC.TF (R194). -/
def execEcbDecTf (len : Nat) (s : State) : Result := .next (runEcb 0x06 .tf (blockDecrypt s .tf) len s)

/-- `Pad(t)` for a remainder of at most 15 bytes (R196). -/
@[irreducible] def pad (t : List Byte) : Block :=
  Vector.ofFn fun i => if i.val < t.length then t.getD i.val 0 else BitVec.ofNat 8 (16 - t.length)

/-- `PadLen(p)` (R197). -/
def padLen (p : Block) : Nat := p[15].toNat

/-- `PadOK(p)` (R197). -/
def padOk (p : Block) : Bool :=
  decide (1 ≤ padLen p) && decide (padLen p ≤ 16)
    && (List.range 16).all fun j => decide (j < 16 - padLen p) || byteAt p j == p[15]

/-- `Unpad(p)` (R197). -/
def unpad (p : Block) : List Byte := p.toList.take (16 - padLen p)

/-- CBC_ENC_START (R198). -/
def startEnc (c : CipherSel) (gen : Bool) (s : State) : State :=
  if s.strm != .idle then raiseError 0x08 .sequenceError s
  else if !s.keyed c then raiseError 0x08 .sequenceError s
  else
    let v := if gen then rngBytes 16 s else s.iv
    let s := if gen then { afterDraw 16 s with iv := v } else s
    complete v.toList { s with strm := .enc, strmSel := c, chain := v }

/-- CBC_ENC_START.AES (R198). -/
def execCbcEncStartAes (gen : Bool) (s : State) : Result := .next (startEnc .aes gen s)

/-- CBC_ENC_START.TF (R198). -/
def execCbcEncStartTf (gen : Bool) (s : State) : Result := .next (startEnc .tf gen s)

/-- CBC_ENC_UPDATE (R199). -/
def execCbcEncUpdate (len : Nat) (s : State) : Result :=
  .next <|
    if s.strm != .enc then raiseError 0x09 .sequenceError s
    else if len != 16 then raiseError 0x09 .invalidLengthError s
    else
      let c := blockEncrypt s s.strmSel (xorBytes (slice s.din 0 16) s.chain)
      complete c.toList { s with chain := c }

/-- CBC_ENC_FINAL (R200). -/
def execCbcEncFinal (len : Nat) (s : State) : Result :=
  .next <|
    if s.strm != .enc then raiseError 0x0A .sequenceError s
    else if len > 15 then raiseError 0x0A .invalidLengthError s
    else
      let c := blockEncrypt s s.strmSel (xorBytes (pad (dinBuffer s len)) s.chain)
      complete c.toList { s with strm := .idle, strmSel := .aes, chain := zeros 16 }

/-- CBC_DEC_START (R205). -/
def startDec (c : CipherSel) (len : Nat) (s : State) : State :=
  if s.strm != .idle then raiseError 0x0C .sequenceError s
  else if !s.keyed c then raiseError 0x0C .sequenceError s
  else if len > 16 then raiseError 0x0C .invalidLengthError s
  else if len < 16 then raiseError 0x0C .formatError s
  else
    complete []
      { s with strm := .dec, strmSel := c, chain := slice s.din 0 16, held := zeros 16, heldValid := false }

/-- CBC_DEC_START.AES (R205). -/
def execCbcDecStartAes (len : Nat) (s : State) : Result := .next (startDec .aes len s)

/-- CBC_DEC_START.TF (R205). -/
def execCbcDecStartTf (len : Nat) (s : State) : Result := .next (startDec .tf len s)

/-- CBC_DEC_UPDATE (R207): the block before is output, the new one is held back (R204). -/
def execCbcDecUpdate (len : Nat) (s : State) : Result :=
  .next <|
    if s.strm != .dec then raiseError 0x0D .sequenceError s
    else if len != 16 then raiseError 0x0D .invalidLengthError s
    else
      let c := slice s.din 0 16
      let p := xorBytes (blockDecrypt s s.strmSel c) s.chain
      let out := if s.heldValid then s.held.toList else []
      complete out { s with chain := c, held := p, heldValid := true }

/-- CBC_DEC_FINAL (R208). -/
def execCbcDecFinal (len : Nat) (s : State) : Result :=
  .next <|
    if s.strm != .dec then raiseError 0x0E .sequenceError s
    else if len ≥ 16 then raiseError 0x0E .invalidLengthError s
    else if len != 0 then raiseError 0x0E .formatError s
    else if !s.heldValid then raiseError 0x0E .formatError s
    else if !padOk s.held then raiseError 0x0E .formatError s
    else complete (unpad s.held) (closeStream s)

end Sys2Proof.Machine
end

