-- ==== Sys2Proof/Machine/Salsa20.lean ====
section
/-! DEFINITION. Salsa20 (43_salsa20.md): the state, the mixing, the counter, and the commands KEY_LOAD.SALSA,
KEY_LOAD.SALSA.GEN and SALSA_PROCESS. -/

namespace Sys2Proof.Machine

open Sys2Proof

/-- The constant word c_j of "expand 32-byte k" (R170). -/
def salsaC0 : Word := 0x61707865
/-- c1 (R170). -/
def salsaC1 : Word := 0x3320646e
/-- c2 (R170). -/
def salsaC2 : Word := 0x79622d32
/-- c3 (R170). -/
def salsaC3 : Word := 0x6b206574

/-- The state of a key, a nonce and a counter `{t1, t0}`: the layout of R172, with the words of R171. -/
def salsaLayout (K : Bytes 32) (N : Bytes 8) (t0 t1 : Word) : Words 16 :=
  #v[ salsaC0,   le32 K 0,  le32 K 4,  le32 K 8,
      le32 K 12, salsaC1,   le32 N 0,  le32 N 4,
      t0,        t1,        salsaC2,   le32 K 16,
      le32 K 20, le32 K 24, le32 K 28, salsaC3 ]

/-- Four words, in the order of the quarter-round (R173). -/
structure Quad where
  z0 : Word
  z1 : Word
  z2 : Word
  z3 : Word
  deriving DecidableEq, Repr

/-- The quarter-round (R173). -/
def quarterround (y0 y1 y2 y3 : Word) : Quad :=
  let z1 := y1 ^^^ rol32 (y0 + y3) 7
  let z2 := y2 ^^^ rol32 (z1 + y0) 9
  let z3 := y3 ^^^ rol32 (z2 + z1) 13
  let z0 := y0 ^^^ rol32 (z3 + z2) 18
  ⟨z0, z1, z2, z3⟩

/-- The column round (R174). -/
def columnround (x : Words 16) : Words 16 :=
  let a := quarterround x[0] x[4] x[8] x[12]
  let b := quarterround x[5] x[9] x[13] x[1]
  let c := quarterround x[10] x[14] x[2] x[6]
  let d := quarterround x[15] x[3] x[7] x[11]
  #v[ a.z0, b.z3, c.z2, d.z1,
      a.z1, b.z0, c.z3, d.z2,
      a.z2, b.z1, c.z0, d.z3,
      a.z3, b.z2, c.z1, d.z0 ]

/-- The row round (R175). -/
def rowround (x : Words 16) : Words 16 :=
  let a := quarterround x[0] x[1] x[2] x[3]
  let b := quarterround x[5] x[6] x[7] x[4]
  let c := quarterround x[10] x[11] x[8] x[9]
  let d := quarterround x[15] x[12] x[13] x[14]
  #v[ a.z0, a.z1, a.z2, a.z3,
      b.z3, b.z0, b.z1, b.z2,
      c.z2, c.z3, c.z0, c.z1,
      d.z1, d.z2, d.z3, d.z0 ]

/-- The double round: columns, then rows (R176). -/
def doubleround (x : Words 16) : Words 16 := rowround (columnround x)

/-- n double rounds. -/
def doublerounds : Nat → Words 16 → Words 16
  | 0, x => x
  | n + 1, x => doubleround (doublerounds n x)

/-- `SalsaBlock(sx)`: the keystream block of a state (R177). -/
@[irreducible] def salsaBlock (sx : Words 16) : Bytes 64 :=
  let x := doublerounds 10 sx
  let z : Words 16 := Vector.ofFn fun i => x[i] + sx[i]
  wordsToBytes 64 z

/-- `CounterInc(sx)` (R178): the low word, carrying into the high word. -/
def counterInc (sx : Words 16) : Words 16 :=
  let low := sx[8] + 1
  let high := if low = 0 then sx[9] + 1 else sx[9]
  (sx.set 8 low).set 9 high

/-- `SalsaProcess(sx, src)` (R180): the output, and the state with the counter moved on. -/
def salsaUnit (sx : Words 16) (src : Bytes 64) : Words 16 × Bytes 64 :=
  (counterInc sx, xorBytes src (salsaBlock sx))

/-- The Salsa20 context loaded from KEY and a nonce, counter 0 (R181). -/
def loadSalsa (N : Bytes 8) (s : State) : State := { s with sx := salsaLayout s.key N 0 0, salsaReady := true }

/-- KEY_LOAD.SALSA, GEN = 0 (R181). -/
def execKeyLoadSalsa (len nlen : Nat) (s : State) : Result :=
  .next <|
    if !keyLenOk len then raiseError 0x01 .configurationError s
    else if !nonceLenOk nlen then raiseError 0x01 .configurationError s
    else complete [] (loadSalsa s.nonce s)

/-- KEY_LOAD.SALSA.GEN, GEN = 1 (R181): the nonce is drawn, and written to NONCE. -/
def execKeyLoadSalsaGen (len : Nat) (s : State) : Result :=
  .next <|
    if !keyLenOk len then raiseError 0x01 .configurationError s
    else
      let N := rngBytes 8 s
      complete [] (loadSalsa N { afterDraw 8 s with nonce := N })

/-- SALSA_PROCESS (R182). -/
def execSalsaProcess (s : State) : Result :=
  .next <|
    if !s.salsaReady then raiseError 0x04 .sequenceError s
    else
      let p := salsaUnit s.sx (slice s.din 0 64)
      complete p.2.toList { s with sx := p.1 }

end Sys2Proof.Machine
end

