-- ==== Sys2Proof/Machine/Dispatch.lean ====
section
/-! DEFINITION. The meaning of every command (40_command.md R102): one arm per constructor of Instr. -/

namespace Sys2Proof.Machine

open Sys2Proof

/-- The command rule of each legal command word (40_command.md R102). -/
def exec (i : Instr) (s : State) : Host.Outcome State Fault Refusal :=
  match i with
  | .keyLoadAes len => Sys2Proof.Machine.execKeyLoadAes len s
  | .keyLoadTf len => Sys2Proof.Machine.execKeyLoadTf len s
  | .keyLoadSalsa len nlen => Sys2Proof.Machine.execKeyLoadSalsa len nlen s
  | .keyLoadSalsaGen len => Sys2Proof.Machine.execKeyLoadSalsaGen len s
  | .blockEncAes => Sys2Proof.Machine.execBlockEncAes s
  | .blockEncTf => Sys2Proof.Machine.execBlockEncTf s
  | .blockDecAes => Sys2Proof.Machine.execBlockDecAes s
  | .blockDecTf => Sys2Proof.Machine.execBlockDecTf s
  | .salsaProcess => Sys2Proof.Machine.execSalsaProcess s
  | .ecbEncAes len => Sys2Proof.Machine.execEcbEncAes len s
  | .ecbEncTf len => Sys2Proof.Machine.execEcbEncTf len s
  | .ecbDecAes len => Sys2Proof.Machine.execEcbDecAes len s
  | .ecbDecTf len => Sys2Proof.Machine.execEcbDecTf len s
  | .cbcEncStartAes gen => Sys2Proof.Machine.execCbcEncStartAes gen s
  | .cbcEncStartTf gen => Sys2Proof.Machine.execCbcEncStartTf gen s
  | .cbcEncUpdate len => Sys2Proof.Machine.execCbcEncUpdate len s
  | .cbcEncFinal len => Sys2Proof.Machine.execCbcEncFinal len s
  | .cbcDecStartAes len => Sys2Proof.Machine.execCbcDecStartAes len s
  | .cbcDecStartTf len => Sys2Proof.Machine.execCbcDecStartTf len s
  | .cbcDecUpdate len => Sys2Proof.Machine.execCbcDecUpdate len s
  | .cbcDecFinal len => Sys2Proof.Machine.execCbcDecFinal len s
  | .cbcAbort => Sys2Proof.Machine.execCbcAbort s
  | .zeroize => Sys2Proof.Machine.execZeroize s

end Sys2Proof.Machine
end

