-- ==== Sys2Proof/Machine/Bus.lean ====
section
/-! DEFINITION. The register window (20_memory.md), issuing a command word (40_command.md R90, R91) and serving what reaches
the core from outside, reset included (70_reset_and_hazards.md R250, R253). -/

namespace Sys2Proof.Machine

open Sys2Proof

/-- The registers of the window (20_memory.md R51). -/
inductive Reg where
  | cmd
  | status
  | key (k : Fin 8)
  | nonce (k : Fin 2)
  | sctr0
  | sctr1
  | iv (k : Fin 4)
  | din (k : Fin 16)
  | dout (k : Fin 16)
  | reserved
  deriving DecidableEq, Repr

/-- The register map (20_memory.md R51), at offsets that are multiples of 4. -/
def regAt (off : BitVec 12) : Reg :=
  let a := off.toNat
  if a < 0x004 then .cmd
  else if a < 0x008 then .status
  else if a < 0x010 then .reserved
  else if a < 0x030 then .key (Fin.ofNat 8 ((a - 0x010) / 4))
  else if a < 0x038 then .nonce (Fin.ofNat 2 ((a - 0x030) / 4))
  else if a < 0x03C then .sctr0
  else if a < 0x040 then .sctr1
  else if a < 0x050 then .iv (Fin.ofNat 4 ((a - 0x040) / 4))
  else if a < 0x080 then .reserved
  else if a < 0x0C0 then .din (Fin.ofNat 16 ((a - 0x080) / 4))
  else if a < 0x100 then .dout (Fin.ofNat 16 ((a - 0x0C0) / 4))
  else .reserved

/-- What a host read of a register returns (20_memory.md R51, R52, R55, R57). -/
def readReg (s : State) : Reg → Word
  | .cmd => 0
  | .status => s.status
  | .key _ => 0
  | .nonce k => le32 s.nonce (4 * k.val)
  | .sctr0 => s.sctr0
  | .sctr1 => s.sctr1
  | .iv k => le32 s.iv (4 * k.val)
  | .din k => le32 s.din (4 * k.val)
  | .dout k => le32 s.dout (4 * k.val)
  | .reserved => 0

/-- `Execute(w)` (40_command.md R91): an illegal word raises IllegalCommand, any other runs its command rule. -/
def executeWord (w : Word) (s : State) : Result :=
  match decode w with
  | .ok i => exec i s
  | .error _ => .next (raiseError (fields w).op .illegalCommand s)

/-- What a host write to a register does (20_memory.md R51, R52, R56 to R58): only CMD starts an action. -/
def writeReg (v : Word) (s : State) : Reg → Result
  | .cmd => executeWord v s
  | .key k => .next { s with key := writeLane s.key k.val v }
  | .nonce k => .next { s with nonce := writeLane s.nonce k.val v }
  | .iv k => .next { s with iv := writeLane s.iv k.val v }
  | .din k => .next { s with din := writeLane s.din k.val v }
  | .status => .next s
  | .sctr0 => .next s
  | .sctr1 => .next s
  | .dout _ => .next s
  | .reserved => .next s

/-- A 32-bit access at a multiple of 4 (20_memory.md R54). -/
def accessOk (off : BitVec 12) (width : Nat) : Bool := decide (width = 4) && decide (off.toNat % 4 = 0)

/-- The state with this bus response to the last access. -/
def respond (b : BusResponse) (s : State) : State := { s with bus := b }

/-- The outcome with this bus response to the last access. -/
def respondTo (b : BusResponse) : Result → Result
  | .next s => .next (respond b s)
  | .fault f => .fault f
  | .refused r => .refused r

/-- One access (20_memory.md R50 to R58): a bus error for anything but a 32-bit access at a multiple of 4
(60_exceptions.md R233), else the register. The step calls it only while `rst_n` is high (`nextInput`). -/
def serveAccess (a : Access) (s : State) : Result :=
  match a with
  | .read off width =>
    .next (respond (if accessOk off width then .readOkay (readReg s (regAt off)) else .readError 0) s)
  | .write off width v =>
    if accessOk off width then respondTo .writeOkay (writeReg v s (regAt off))
    else .next (respond .writeError s)

/-- `rst_n` low: the core's fields at their reset values, whatever command was in progress
(70_reset_and_hazards.md R250, R253); what the bus gives an access from now on is any value (log entry 20). -/
def enterReset (s : State) : State :=
  { clearCore s with
    rstN := false
    bus := .inReset (Config.busInReset s.resets).1 (Config.busInReset s.resets).2
    resets := s.resets + 1 }

/-- `rst_n` high after low: every field holds its reset value (70_reset_and_hazards.md R250), and no access has been
answered since. -/
def leaveReset (s : State) : State := if s.rstN then s else { clearCore s with rstN := true, bus := .none }

/-- The first edge of `rst_n` among the inputs, and the inputs without it: the accesses before it keep their places. -/
def nextEdge : List Input → Option (Input × List Input)
  | [] => none
  | .access a :: rest =>
    match nextEdge rest with
    | some (i, others) => some (i, .access a :: others)
    | none => none
  | .resetLow :: rest => some (.resetLow, rest)
  | .resetDuring a :: rest => some (.resetDuring a, rest)
  | .resetHigh :: rest => some (.resetHigh, rest)

/-- The input that the core takes next, and the others: the oldest; but while `rst_n` is low no access is served, each is
stuck until reset ends (70_reset_and_hazards.md R250, 93_implementation_defined.md), and only an edge is taken
(log entry 4). -/
def nextInput (s : State) : Option (Input × List Input) :=
  if s.rstN then
    match s.inputs with
    | [] => none
    | i :: rest => some (i, rest)
  else nextEdge s.inputs

/-- One input of the core. -/
def serveInput (i : Input) (s : State) : Result :=
  match i with
  | .access a => serveAccess a s
  | .resetLow => .next (enterReset s)
  | .resetDuring _ => .next (enterReset s)
  | .resetHigh => .next (leaveReset s)

/-- The host's next access is this command word's write to CMD (log entry 6). -/
def issueNext (w : Word) (s : State) : State :=
  { s with rstN := true, inputs := .access (.write 0x000 4 w) :: s.inputs }

end Sys2Proof.Machine
end

