-- ==== Sys2Proof/Machine/Step.lean ====
section
/-! DEFINITION. One step: the core takes one input; with none that it can take it does nothing (60_exceptions.md R242,
70_reset_and_hazards.md R250). -/

namespace Sys2Proof.Machine

open Sys2Proof

/-- One step (20_memory.md R59, R60): one input, completely. -/
def step (s : State) : Host.Outcome State Fault Refusal :=
  match nextInput s with
  | none => .next s
  | some (i, rest) => serveInput i { s with inputs := rest }

/-- The state in which the next step runs this word of the opcode table as a command (log entry 6). -/
def State.withFetchWord (s : State) (nbits w : Nat) : State := issueNext (tableWord nbits w) s

end Sys2Proof.Machine
end

