-- ==== Sys2Proof/Machine/HostProgram.lean ====
section
/-! DEFINITION. The host's side of the interface: where the platform places the window (20_memory.md R50, R64), the command
lines and pseudo-instructions of 30_encoding.md R80 to R82, and the CBC command sequences of 44_modes.md R211 and R212.
The core's step calls none of this: these are the transactions a host issues. -/

namespace Sys2Proof.Machine

open Sys2Proof

/-- The offset that a host byte address has in a window placed at `base`, if it lies in the window's 4096 bytes (R50). -/
def windowOffset (base addr : Nat) : Option (BitVec 12) :=
  if base ≤ addr ∧ addr < base + 4096 then some (BitVec.ofNat 12 (addr - base)) else none

/-- `MemWrite(addr, 4, v)` at a host byte address (00_scope.md R16); none where another device answers. -/
def memWrite (addr : Nat) (v : Word) : Option Input :=
  (windowOffset Config.coreBase addr).map fun off => .access (.write off 4 v)

/-- `MemRead(addr, 4)` at a host byte address (00_scope.md R16). -/
def memRead (addr : Nat) : Option Input :=
  (windowOffset Config.coreBase addr).map fun off => .access (.read off 4)

/-- `WR off, v` (R81), as it reaches the core. R81 puts no bound on the offset: one of 0x1000 or more is taken modulo 4096, by
the model's choice (log entry 18). -/
def hostWr (off : Nat) (v : Word) : Input := .access (.write (BitVec.ofNat 12 off) 4 v)

/-- `RD off` (R81), as it reaches the core; the offset is taken modulo 4096 (log entry 18). -/
def hostRd (off : Nat) : Input := .access (.read (BitVec.ofNat 12 off) 4)

/-- The mnemonics of a command line, one for each opcode (R74, R80). -/
inductive Mnemonic where
  | keyLoad | blockEnc | blockDec | salsaProcess | ecbEnc | ecbDec
  | cbcEncStart | cbcEncUpdate | cbcEncFinal | cbcDecStart | cbcDecUpdate | cbcDecFinal | cbcAbort | zeroize
  deriving DecidableEq, Repr

/-- The opcode of a mnemonic (R74). -/
def Mnemonic.op : Mnemonic → BitVec 8
  | .keyLoad => 0x01
  | .blockEnc => 0x02
  | .blockDec => 0x03
  | .salsaProcess => 0x04
  | .ecbEnc => 0x05
  | .ecbDec => 0x06
  | .cbcEncStart => 0x08
  | .cbcEncUpdate => 0x09
  | .cbcEncFinal => 0x0A
  | .cbcDecStart => 0x0C
  | .cbcDecUpdate => 0x0D
  | .cbcDecFinal => 0x0E
  | .cbcAbort => 0x0F
  | .zeroize => 0x10

/-- How SEL is written in a command line (R73, R80). -/
inductive SelName where
  | aes | tf | salsa
  deriving DecidableEq, Repr

/-- The value of SEL that a name stands for (R73). -/
def SelName.code : SelName → BitVec 2
  | .aes => 0
  | .tf => 1
  | .salsa => 2

/-- A command line `MNEMONIC [sel] [, len=N] [, nlen=N] [, gen]` (R80); an omitted field is 0. -/
structure CommandLine where
  mnemonic : Mnemonic
  sel      : Option SelName := none
  len      : Nat := 0
  nlen     : Nat := 0
  gen      : Bool := false
  deriving DecidableEq, Repr

/-- The one word a command line assembles to (R80). SALSA_PROCESS names no cipher in its line and has SEL = 2
(R74, R79; log entry 7). The spec does not say what a count above 127 assembles to: N is taken modulo 128, by the model's
choice (log entry 16). Nor does it say what a line assembles to that sets a field its row fixes: the word has that field as
the line gives it, and so is illegal, by the model's choice (log entry 17). -/
def CommandLine.word (c : CommandLine) : Word :=
  let omitted : BitVec 2 := if c.mnemonic = .salsaProcess then 2 else 0
  commandWord c.mnemonic.op ((c.sel.map SelName.code).getD omitted) (BitVec.ofBool c.gen) c.len c.nlen

/-- `CMD <command>` (R81). -/
def hostCmd (c : CommandLine) : Input := hostWr 0x000 c.word

/-- The byte registers of the pseudo-instructions (R82). -/
inductive BufReg where
  | key | nonce | iv | din | dout
  deriving DecidableEq, Repr

/-- `base_R` (20_memory.md R51). -/
def BufReg.base : BufReg → Nat
  | .key => 0x010
  | .nonce => 0x030
  | .iv => 0x040
  | .din => 0x080
  | .dout => 0x0C0

/-- `LE32(b', 4k)`, b' being b filled with 0x00 (R82). -/
def bufWord (b : List Byte) (k : Nat) : Word :=
  wordOf (b.getD (4 * k) 0) (b.getD (4 * k + 1) 0) (b.getD (4 * k + 2) 0) (b.getD (4 * k + 3) 0)

/-- `ceil(m/4)` (R82). -/
def bufWords (m : Nat) : Nat := (m + 3) / 4

/-- `WRBUF R, b` (R82). That it also expands for DOUT, and for more bytes than R has, is the model's choice (log entry 19). -/
def wrbuf (r : BufReg) (b : List Byte) : List Input :=
  (List.range (bufWords b.length)).map fun k => hostWr (r.base + 4 * k) (bufWord b k)

/-- `RDBUF R, m` (R82): the reads; the bytes are those of the words read, in little-endian order.
That it also expands for KEY, and for more bytes than R has, is the model's choice (log entry 19). -/
def rdbuf (r : BufReg) (m : Nat) : List Input :=
  (List.range (bufWords m)).map fun k => hostRd (r.base + 4 * k)

/-- `SETKEY sel, k` (R82): for salsa the host must have written NONCE first. -/
def setKey (sel : SelName) (k : Bytes 32) : List Input :=
  wrbuf .key k.toList ++
    [hostCmd { mnemonic := .keyLoad, sel := some sel, len := 32, nlen := if sel = .salsa then 8 else 0 }]

/-- The read of `CHECK` (R82). -/
def checkRead : Input := hostRd 0x004

/-- What `CHECK` asserts of the word it reads (R82): bits [3:0] are 0. -/
def checkPasses (status : Word) : Bool := status.extractLsb' 0 4 == 0

/-- DIN after `WRBUF DIN, b` (R82): the words written, the others kept. -/
def putDin (b : List Byte) (s : State) : State :=
  { s with din := Vector.ofFn fun j => if j.val < 4 * bufWords b.length then b.getD j.val 0 else s.din[j] }

/-- The host puts bytes in DIN, issues a command and reads its output. -/
def runCommand (i : Instr) (b : List Byte) (s : State) : State × List Byte :=
  match exec i (putDin b s) with
  | .next t => (t, t.output)
  | .fault _ => (s, [])
  | .refused _ => (s, [])

/-- The host goes on only after a command without error (70_reset_and_hazards.md R257); it gathers the outputs. -/
def andThen (r : State × List Byte) (f : State → State × List Byte) : State × List Byte :=
  if r.1.err = .ok then ((f r.1).1, r.2 ++ (f r.1).2) else r

/-- One `UPDATE len=16` for each of the first m blocks of a byte string. -/
def updates (update : Instr) : Nat → List Byte → State → State × List Byte
  | 0, _, s => (s, [])
  | m + 1, P, s => andThen (runCommand update (P.take 16) s) (updates update m (P.drop 16))

/-- CBC_ENC_START for a cipher. -/
def encStart : CipherSel → Bool → Instr
  | .aes, gen => .cbcEncStartAes gen
  | .tf, gen => .cbcEncStartTf gen

/-- CBC_DEC_START for a cipher. -/
def decStart : CipherSel → Nat → Instr
  | .aes, len => .cbcDecStartAes len
  | .tf, len => .cbcDecStartTf len

/-- The command stream that encrypts P (44_modes.md R211): START, an UPDATE for each full block, FINAL with the rest. -/
def encryptStream (c : CipherSel) (gen : Bool) (P : List Byte) (s : State) : State × List Byte :=
  let m := P.length / 16
  andThen (runCommand (encStart c gen) [] s) fun s =>
    andThen (updates (.cbcEncUpdate 16) m P s) fun s =>
      runCommand (.cbcEncFinal (P.length % 16)) (P.drop (16 * m)) s

/-- The command stream that decrypts S (44_modes.md R212). -/
def decryptStream (c : CipherSel) (S : List Byte) (s : State) : State × List Byte :=
  let k := (S.length - 16) / 16
  andThen (runCommand (decStart c (min S.length 16)) (S.take 16) s) fun s =>
    andThen (updates (.cbcDecUpdate 16) k (S.drop 16) s) fun s =>
      runCommand (.cbcDecFinal ((S.length - 16) % 16)) [] s

end Sys2Proof.Machine
end

