-- ==== Sys2Proof/Safety.lean ====
section
/-! DEFINITION. What holds in every state the core reaches (10_state.md R44), and the architectural state two states may
share (10_state.md R20, R235): the terms the statements use. -/

namespace Sys2Proof.Machine

open Sys2Proof

/-- The architectural fields of 10_state.md R20 are those of another state; the model's own five fields may differ. -/
def State.SameCore (s t : State) : Prop :=
  s = { t with rstN := s.rstN, inputs := s.inputs, bus := s.bus, rngDrawn := s.rngDrawn, resets := s.resets }

/-- The invariants of 10_state.md R44, each under its letter, and that the core rests at its reset values while `rst_n`
is low (log entry 8). The first half of (i) speaks of the last command and is stated of the commands (log entry 14). -/
structure State.Inv (s : State) : Prop where
  /-- (a) -/
  idle : s.strm = .idle → s.strmSel = .aes ∧ s.chain = zeros 16 ∧ s.held = zeros 16 ∧ s.heldValid = false
  /-- (b) -/
  heldInDec : s.heldValid = true → s.strm = .dec
  /-- (c) -/
  encHoldsNothing : s.strm = .enc → s.held = zeros 16 ∧ s.heldValid = false
  /-- (d) -/
  aesUnkeyed : s.aesKeyed = false → s.aesRk = Vector.replicate 15 (zeros 16)
  /-- (e) -/
  tfUnkeyed : s.tfKeyed = false → s.tfK = zeroWords 40 ∧ s.tfS = zeroWords 4
  /-- (f) -/
  salsaUnready : s.salsaReady = false → s.sx = zeroWords 16
  /-- (g) -/
  streamKeyed : s.strm ≠ .idle → s.keyed s.strmSel = true
  /-- (h) -/
  outLenBound : s.outLen.toNat ≤ 64
  /-- (h) -/
  doutTail : ∀ i : Fin 64, s.outLen.toNat ≤ i.val → s.dout[i] = 0
  /-- (i), second half -/
  failedClean : s.err ≠ .ok → s.outLen = 0 ∧ s.dout = zeros 64
  /-- R250 fixes the fields when `rst_n` goes high; that they hold their reset values while it is low is log entry 8. -/
  resetHeld : s.rstN = false → s.SameCore State.reset

/-- A loaded Salsa20 state has the constant words on its diagonal (43_salsa20.md R172). -/
def State.SalsaDiagonal (s : State) : Prop :=
  s.salsaReady = true → s.sx[0] = salsaC0 ∧ s.sx[5] = salsaC1 ∧ s.sx[10] = salsaC2 ∧ s.sx[15] = salsaC3

/-- What a host may see: the two states differ at most in the secrets, KEY, the key schedules, the Salsa20 words other
than the counter, and the stream's chain and held blocks (60_exceptions.md R235, 10_state.md R43). -/
def State.SameButSecrets (s t : State) : Prop :=
  s = { t with key := s.key, aesRk := s.aesRk, tfK := s.tfK, tfS := s.tfS, sx := s.sx, chain := s.chain, held := s.held }
    ∧ s.sx[8] = t.sx[8] ∧ s.sx[9] = t.sx[9]

/-- A run that no fault and no refusal ends: every step of it answers a next state. -/
def SafeRun (n : Nat) (s : State) : Prop := ∃ t, Host.Core.run
  { State := State, Fault := Fault, Refusal := Refusal, step := step, reset := State.reset } n s = .next t

end Sys2Proof.Machine
end

