-- ==== Sys2Proof/Certificates/Slice0/Obligations.lean ====
section
/-! DEFINITION. The statements about the model. The names under Sys2Proof.Spec are the terms they are written in. -/

namespace Sys2Proof.Spec

open Sys2Proof Sys2Proof.Machine

/-- A successful command's result fields (40_command.md R93): OK, the output's length, DOUT = output ++ zeros. -/
def Output (out : List Byte) (t : State) : Prop :=
  t.err = .ok ∧ t.outLen.toNat = out.length ∧ t.dout.toList = out ++ List.replicate (64 - out.length) 0

/-- Nothing but the result fields differs (40_command.md R92). -/
def ResultOnly (s t : State) : Prop := t = { s with dout := t.dout, outLen := t.outLen, err := t.err }

/-- Exactly what `raise E` writes (40_command.md R94). -/
def Failed (e : ErrCode) (s t : State) : Prop := t = { s with dout := zeros 64, outLen := 0, err := e }

/-- What `raise E` writes in a CBC command (40_command.md R94, R95). -/
def FailedAborting (e : ErrCode) (s t : State) : Prop :=
  t = { s with
        dout := zeros 64, outLen := 0, err := e
        strm := .idle, strmSel := .aes, chain := zeros 16, held := zeros 16, heldValid := false }

/-- The commands whose opcode 40_command.md R95 lists. -/
def isCbcCommand : Instr → Bool
  | .cbcEncStartAes _ | .cbcEncStartTf _ | .cbcEncUpdate _ | .cbcEncFinal _ => true
  | .cbcDecStartAes _ | .cbcDecStartTf _ | .cbcDecUpdate _ | .cbcDecFinal _ | .cbcAbort => true
  | _ => false

/-- Is the padding of a block good, byte by byte (44_modes.md R197)? -/
abbrev GoodPadding (p : Block) : Prop :=
  1 ≤ p[15].toNat ∧ p[15].toNat ≤ 16 ∧ ∀ j : Fin 16, 16 - p[15].toNat ≤ j.val → p[j] = p[15]

/-- The first error of each command in the order of 60_exceptions.md R228, with the causes of R226's table. -/
def firstError (i : Instr) (s : State) : ErrCode :=
  match i with
  | .keyLoadAes len =>
    if s.strm ≠ .idle ∧ s.strmSel = .aes then .sequenceError else if len ≠ 32 then .configurationError else .ok
  | .keyLoadTf len =>
    if s.strm ≠ .idle ∧ s.strmSel = .tf then .sequenceError else if len ≠ 32 then .configurationError else .ok
  | .keyLoadSalsa len nlen => if len ≠ 32 ∨ nlen ≠ 8 then .configurationError else .ok
  | .keyLoadSalsaGen len => if len ≠ 32 then .configurationError else .ok
  | .blockEncAes | .blockDecAes => if s.aesKeyed = false then .sequenceError else .ok
  | .blockEncTf | .blockDecTf => if s.tfKeyed = false then .sequenceError else .ok
  | .salsaProcess => if s.salsaReady = false then .sequenceError else .ok
  | .ecbEncAes len | .ecbDecAes len =>
    if s.aesKeyed = false then .sequenceError
    else if len % 16 ≠ 0 ∨ len > 64 then .invalidLengthError else .ok
  | .ecbEncTf len | .ecbDecTf len =>
    if s.tfKeyed = false then .sequenceError
    else if len % 16 ≠ 0 ∨ len > 64 then .invalidLengthError else .ok
  | .cbcEncStartAes _ => if s.strm ≠ .idle ∨ s.aesKeyed = false then .sequenceError else .ok
  | .cbcEncStartTf _ => if s.strm ≠ .idle ∨ s.tfKeyed = false then .sequenceError else .ok
  | .cbcEncUpdate len =>
    if s.strm ≠ .enc then .sequenceError else if len ≠ 16 then .invalidLengthError else .ok
  | .cbcEncFinal len =>
    if s.strm ≠ .enc then .sequenceError else if len > 15 then .invalidLengthError else .ok
  | .cbcDecStartAes len =>
    if s.strm ≠ .idle ∨ s.aesKeyed = false then .sequenceError
    else if len > 16 then .invalidLengthError else if len < 16 then .formatError else .ok
  | .cbcDecStartTf len =>
    if s.strm ≠ .idle ∨ s.tfKeyed = false then .sequenceError
    else if len > 16 then .invalidLengthError else if len < 16 then .formatError else .ok
  | .cbcDecUpdate len =>
    if s.strm ≠ .dec then .sequenceError else if len ≠ 16 then .invalidLengthError else .ok
  | .cbcDecFinal len =>
    if s.strm ≠ .dec then .sequenceError
    else if len ≥ 16 then .invalidLengthError
    else if 1 ≤ len then .formatError
    else if s.heldValid = false then .formatError
    else if ¬ GoodPadding s.held then .formatError else .ok
  | .cbcAbort | .zeroize => .ok

/-- The Salsa20 state of a key and a nonce at counter 0, word by word (43_salsa20.md R170 to R172). -/
def SalsaLoaded (K : Bytes 32) (N : Bytes 8) (x : Words 16) : Prop :=
  x[0] = 0x61707865 ∧ x[1] = le32 K 0 ∧ x[2] = le32 K 4 ∧ x[3] = le32 K 8 ∧
  x[4] = le32 K 12 ∧ x[5] = 0x3320646e ∧ x[6] = le32 N 0 ∧ x[7] = le32 N 4 ∧
  x[8] = 0 ∧ x[9] = 0 ∧ x[10] = 0x79622d32 ∧ x[11] = le32 K 16 ∧
  x[12] = le32 K 20 ∧ x[13] = le32 K 24 ∧ x[14] = le32 K 28 ∧ x[15] = 0x6b206574

/-- The key-dependent S-box s_j of Twofish (42_twofish.md R149), with L = (S_3, S_2, S_1, S_0). -/
def tfSbox (S : Words 4) (j : Nat) (x : Byte) : Byte :=
  let l0 := wordByte S[3] j
  let l1 := wordByte S[2] j
  let l2 := wordByte S[1] j
  let l3 := wordByte S[0] j
  match j with
  | 0 => q1 (q0 (q0 (q1 (q1 x ^^^ l3) ^^^ l2) ^^^ l1) ^^^ l0)
  | 1 => q0 (q0 (q1 (q1 (q0 x ^^^ l3) ^^^ l2) ^^^ l1) ^^^ l0)
  | 2 => q1 (q1 (q0 (q0 (q0 x ^^^ l3) ^^^ l2) ^^^ l1) ^^^ l0)
  | _ => q0 (q1 (q1 (q0 (q1 x ^^^ l3) ^^^ l2) ^^^ l1) ^^^ l0)

/-- Word i of the AES key schedule that the round keys hold (41_aes.md R122). -/
def scheduleWord (rk : Vector Block 15) (i : Nat) : Bytes 4 := slice (roundKey rk (i / 4)) (4 * (i % 4)) 4

/-- A Salsa20 state with its 64-bit block counter at n (43_salsa20.md R172). -/
def atCounter (x : Words 16) (n : Nat) : Words 16 :=
  (x.set 8 (BitVec.ofNat 32 n)).set 9 (BitVec.ofNat 32 (n / 2 ^ 32))

/-- One SALSA_PROCESS for each 64-byte unit; the outputs in order. -/
def processUnits : List (Bytes 64) → State → List (Bytes 64)
  | [], _ => []
  | x :: xs, s =>
    match exec .salsaProcess { s with din := x } with
    | .next t => t.dout :: processUnits xs t
    | .fault _ => []
    | .refused _ => []

/-- The ciphertext of a list of blocks: `C_i = E(B_i XOR C_{i-1})` (44_modes.md R211). -/
def cbcChain (E : Block → Block) : Block → List Block → List Byte
  | _, [] => []
  | v, b :: bs => (E (xorBytes b v)).toList ++ cbcChain E (E (xorBytes b v)) bs

/-- Block i of a byte string. -/
def blockAt (S : List Byte) (i : Nat) : Block := fillTo 16 (S.drop (16 * i))

/-- The blocks `B_1 .. B_{m+1}` of a plaintext: the full blocks and the padded rest (44_modes.md R211). -/
def paddedBlocks (P : List Byte) : List Block :=
  (List.range (P.length / 16)).map (blockAt P) ++ [pad (P.drop (16 * (P.length / 16)))]

/-- `P_i = D(C_i) XOR C_{i-1}` of a stream, C_0 being its IV (44_modes.md R202, R212). -/
def recovered (D : Block → Block) (S : List Byte) (i : Nat) : Block :=
  xorBytes (D (blockAt S i)) (blockAt S (i - 1))

/-- What R92 to R94 and R126, R156 give a KEY_LOAD of a block cipher whose context `loaded` describes. -/
def BlockKeyLoad (i : Nat → Instr) (c : CipherSel) (loaded : State → State → Prop) : Prop :=
  ∀ s len,
    (s.strm ≠ .idle ∧ s.strmSel = c → ∃ t, exec (i len) s = .next t ∧ Failed .sequenceError s t) ∧
    (¬ (s.strm ≠ .idle ∧ s.strmSel = c) →
      (len ≠ 32 → ∃ t, exec (i len) s = .next t ∧ Failed .configurationError s t) ∧
      (len = 32 → ∃ t, exec (i len) s = .next t ∧ Output [] t ∧ loaded s t))

/-- What R127, R128, R157 and R158 give a block command. -/
def BlockCommand (i : Instr) (c : CipherSel) (f : State → Block → Block) : Prop :=
  ∀ s,
    (s.keyed c = false → ∃ t, exec i s = .next t ∧ Failed .sequenceError s t) ∧
    (s.keyed c = true →
      ∃ t, exec i s = .next t ∧ Output (f s (slice s.din 0 16)).toList t ∧ ResultOnly s t)

/-- What R193 and R194 give an ECB command: each block of the buffer through the cipher, on its own. -/
def EcbCommand (i : Nat → Instr) (c : CipherSel) (f : State → Block → Block) : Prop :=
  ∀ s len,
    (s.keyed c = false → ∃ t, exec (i len) s = .next t ∧ Failed .sequenceError s t) ∧
    (s.keyed c = true →
      (¬ (len % 16 = 0 ∧ len ≤ 64) → ∃ t, exec (i len) s = .next t ∧ Failed .invalidLengthError s t) ∧
      (len % 16 = 0 ∧ len ≤ 64 →
        ∃ t, exec (i len) s = .next t ∧ t.err = .ok ∧ t.outLen.toNat = len ∧
          (∀ b, b < len / 16 → slice t.dout (16 * b) 16 = f s (slice s.din (16 * b) 16)) ∧
          (∀ j : Fin 64, len ≤ j.val → t.dout[j] = 0) ∧ ResultOnly s t))

/-- What R198 gives CBC_ENC_START. -/
def EncStart (i : Bool → Instr) (c : CipherSel) : Prop :=
  ∀ s,
    (s.strm ≠ .idle ∨ s.keyed c = false →
      ∀ gen, ∃ t, exec (i gen) s = .next t ∧ FailedAborting .sequenceError s t) ∧
    (s.strm = .idle ∧ s.keyed c = true →
      (∃ t, exec (i false) s = .next t ∧ Output s.iv.toList t ∧
        t = { s with
              strm := .enc, strmSel := c, chain := s.iv
              dout := t.dout, outLen := t.outLen, err := t.err }) ∧
      (∃ t, exec (i true) s = .next t ∧ Output t.iv.toList t ∧
        (∀ j : Fin 16, t.iv[j] = Config.rngByte (s.rngDrawn + j.val)) ∧
        t = { s with
              strm := .enc, strmSel := c, chain := t.iv, iv := t.iv, rngDrawn := s.rngDrawn + 16
              dout := t.dout, outLen := t.outLen, err := t.err }))

/-- What R205 gives CBC_DEC_START. -/
def DecStart (i : Nat → Instr) (c : CipherSel) : Prop :=
  ∀ s len,
    (s.strm ≠ .idle ∨ s.keyed c = false →
      ∃ t, exec (i len) s = .next t ∧ FailedAborting .sequenceError s t) ∧
    (s.strm = .idle ∧ s.keyed c = true →
      (16 < len → ∃ t, exec (i len) s = .next t ∧ FailedAborting .invalidLengthError s t) ∧
      (len < 16 → ∃ t, exec (i len) s = .next t ∧ FailedAborting .formatError s t) ∧
      (len = 16 → ∃ t, exec (i len) s = .next t ∧ Output [] t ∧
        t = { s with
              strm := .dec, strmSel := c, chain := slice s.din 0 16, held := zeros 16, heldValid := false
              dout := t.dout, outLen := t.outLen, err := t.err }))

/-- A byte register after a write of word k: its four bytes are the value's, least significant first, the others are kept
(20_memory.md R52). -/
def LaneWritten {n : Nat} (old new : Bytes n) (k : Nat) (v : Word) : Prop :=
  ∀ j (h : j < n), new[j] = if j / 4 = k then v.extractLsb' (8 * (j % 4)) 8 else old[j]

/-- A word read from word k of a byte register (20_memory.md R52). -/
def LaneRead {n : Nat} (r : Bytes n) (k : Nat) (v : Word) : Prop :=
  ∀ i, i < 4 → v.extractLsb' (8 * i) 8 = byteAt r (4 * k + i)

/-- A byte register after `WRBUF R, b` (30_encoding.md R82). -/
def BufWritten {n : Nat} (old new : Bytes n) (b : List Byte) : Prop :=
  ∀ j (h : j < n), new[j] = if j < 4 * ((b.length + 3) / 4) then b.getD j 0 else old[j]

/-- The step that serves this access next, `rst_n` high. -/
def ServesNext (a : Access) (rest : List Input) (s : State) : Prop :=
  s.rstN = true ∧ s.inputs = .access a :: rest

end Sys2Proof.Spec

open Sys2Proof Sys2Proof.Machine Sys2Proof.Spec

/-! ## The command word -/

/-- Decoding an encoded well-formed command gives it back (30_encoding.md R70, R78). -/
def Obligations.DecodeUndoesEncode : Prop := ∀ i : Instr, i.wellFormed = true → decode (encode i) = .ok i

/-- A word that decodes is the encoding of a well-formed command: it has one meaning (30_encoding.md R70, R78). -/
def Obligations.EncodeUndoesDecode : Prop :=
  ∀ (w : Word) (i : Instr), decode w = .ok i → i.wellFormed = true ∧ encode i = w

/-- 30_encoding.md R75: a command word matches the row of its mnemonic and no other; any other word matches no row. -/
def Obligations.WordMatchesOnlyItsRow : Prop :=
  ∀ w : Word,
    (∀ i, decode w = .ok i →
      (opcodeRows.filter fun r => w &&& r.mask == r.value).map Row.mnemonic = [i.mnemonic]) ∧
    (∀ e, decode w = .error e → ∀ r ∈ opcodeRows, w &&& r.mask ≠ r.value)

/-- 30_encoding.md R76, 40_command.md R96: the words with one of the four faults (a) to (d) are exactly those that
decode to nothing, and issuing one raises IllegalCommand whatever the state. -/
def Obligations.IllegalWordsAreThoseOfTheMap : Prop :=
  ∀ (w : Word),
    ((∃ e, decode w = .error e) ↔ illegalWord w = true) ∧
    (illegalWord w = true → ∀ s, ∃ t, executeWord w s = .next t ∧ t.err = .illegalCommand)

/-- 40_command.md R94, R95 for an illegal word: the result fields of the error, and the stream aborted exactly when OP is one of
R95's seven. That 0x0B stays outside them, whatever 60_exceptions.md R221's range "0x08 to 0x0F" suggests, is the model's
reading (log entry 5). -/
def Obligations.IllegalWordAbortsOnlyForCbcOpcode : Prop :=
  ∀ (w : Word) (s : State), illegalWord w = true →
    ∃ t, executeWord w s = .next t ∧
      (w.extractLsb' 0 8 ∈ [0x08#8, 0x09#8, 0x0A#8, 0x0C#8, 0x0D#8, 0x0E#8, 0x0F#8] →
        FailedAborting .illegalCommand s t) ∧
      (w.extractLsb' 0 8 ∉ [0x08#8, 0x09#8, 0x0A#8, 0x0C#8, 0x0D#8, 0x0E#8, 0x0F#8] →
        Failed .illegalCommand s t)

/-- 30_encoding.md R79: the worked encodings, assembled and decoded. -/
def Obligations.WorkedEncodings : Prop :=
  let line : Mnemonic → CommandLine := fun m => { mnemonic := m }
  ({ line .keyLoad with sel := some .aes, len := 32 }.word = 0x00200001 ∧
    decode 0x00200001 = .ok (.keyLoadAes 32)) ∧
  ({ line .keyLoad with sel := some .salsa, len := 32, nlen := 8 }.word = 0x08200201 ∧
    decode 0x08200201 = .ok (.keyLoadSalsa 32 8)) ∧
  ({ line .keyLoad with sel := some .salsa, len := 32, gen := true }.word = 0x00200601 ∧
    decode 0x00200601 = .ok (.keyLoadSalsaGen 32)) ∧
  ({ line .ecbEnc with sel := some .tf, len := 48 }.word = 0x00300105 ∧
    decode 0x00300105 = .ok (.ecbEncTf 48)) ∧
  ({ line .cbcEncStart with sel := some .aes, gen := true }.word = 0x00000408 ∧
    decode 0x00000408 = .ok (.cbcEncStartAes true)) ∧
  ({ line .cbcEncFinal with len := 5 }.word = 0x0005000A ∧ decode 0x0005000A = .ok (.cbcEncFinal 5)) ∧
  ((line .salsaProcess).word = 0x00000204 ∧ decode 0x00000204 = .ok .salsaProcess) ∧
  ((line .zeroize).word = 0x00000010 ∧ decode 0x00000010 = .ok .zeroize)

/-! ## The register window -/

/-- 60_exceptions.md R233, 20_memory.md R54: an access that is not 32 bits wide at a multiple of 4 gets the bus error and
changes nothing; a read returns 0 and no command starts. No other access gets it. -/
def Obligations.BusErrorChangesNothing : Prop :=
  ∀ (s : State) (rest : List Input) (off : BitVec 12) (width : Nat),
    (¬ (width = 4 ∧ off.toNat % 4 = 0) →
      (ServesNext (.read off width) rest s → step s = .next { s with inputs := rest, bus := .readError 0 }) ∧
      (∀ v, ServesNext (.write off width v) rest s → step s = .next { s with inputs := rest, bus := .writeError })) ∧
    (width = 4 ∧ off.toNat % 4 = 0 →
      (ServesNext (.read off width) rest s → ∃ t v, step s = .next t ∧ t.bus = .readOkay v) ∧
      (∀ v, ServesNext (.write off width v) rest s → ∃ t, step s = .next t ∧ t.bus = .writeOkay))

/-- 20_memory.md R51, R52, R55, R57: what a read of every offset of the map returns, and that it changes nothing. -/
def Obligations.ReadsFollowTheRegisterMap : Prop :=
  ∀ (s : State) (rest : List Input) (off : BitVec 12), off.toNat % 4 = 0 → ServesNext (.read off 4) rest s →
    ∃ v, step s = .next { s with inputs := rest, bus := .readOkay v } ∧
      (off.toNat = 0x000 → v = 0) ∧
      (off.toNat = 0x004 → v = s.status) ∧
      (0x008 ≤ off.toNat ∧ off.toNat ≤ 0x00C → v = 0) ∧
      (∀ k, k < 8 → off.toNat = 0x010 + 4 * k → v = 0) ∧
      (∀ k, k < 2 → off.toNat = 0x030 + 4 * k → LaneRead s.nonce k v) ∧
      (off.toNat = 0x038 → v = if s.salsaReady then s.sx[8] else 0) ∧
      (off.toNat = 0x03C → v = if s.salsaReady then s.sx[9] else 0) ∧
      (∀ k, k < 4 → off.toNat = 0x040 + 4 * k → LaneRead s.iv k v) ∧
      (0x050 ≤ off.toNat ∧ off.toNat ≤ 0x07C → v = 0) ∧
      (∀ k, k < 16 → off.toNat = 0x080 + 4 * k → LaneRead s.din k v) ∧
      (∀ k, k < 16 → off.toNat = 0x0C0 + 4 * k → LaneRead s.dout k v) ∧
      (0x100 ≤ off.toNat → v = 0)

/-- 10_state.md R28: the fields of STATUS, ERR with the numbers of 60_exceptions.md R220. -/
def Obligations.StatusFields : Prop :=
  ∀ s : State,
    s.status.extractLsb' 0 4 =
      (match s.err with
        | .ok => 0
        | .configurationError => 1
        | .invalidLengthError => 2
        | .formatError => 3
        | .illegalCommand => 4
        | .sequenceError => 5) ∧
    s.status.extractLsb' 4 4 = 0 ∧
    s.status.getLsbD 8 = s.aesKeyed ∧ s.status.getLsbD 9 = s.tfKeyed ∧ s.status.getLsbD 10 = s.salsaReady ∧
    s.status.getLsbD 11 = false ∧
    s.status.extractLsb' 12 2 = (match s.strm with | .idle => 0 | .enc => 1 | .dec => 2) ∧
    s.status.getLsbD 14 = (s.strmSel == .tf) ∧ s.status.getLsbD 15 = s.heldValid ∧
    s.status.extractLsb' 16 7 = s.outLen ∧ s.status.extractLsb' 23 9 = 0

/-- 20_memory.md R51, R52: a write to KEY, NONCE, IV or DIN stores the value's four bytes, the least significant first,
and changes nothing else. -/
def Obligations.DataRegisterWritesStoreFourBytes : Prop :=
  ∀ (s : State) (rest : List Input) (off : BitVec 12) (v : Word), ServesNext (.write off 4 v) rest s →
    (∀ k, k < 8 → off.toNat = 0x010 + 4 * k → ∃ t, step s = .next t ∧ LaneWritten s.key t.key k v ∧
      t = { s with key := t.key, inputs := rest, bus := .writeOkay }) ∧
    (∀ k, k < 2 → off.toNat = 0x030 + 4 * k → ∃ t, step s = .next t ∧ LaneWritten s.nonce t.nonce k v ∧
      t = { s with nonce := t.nonce, inputs := rest, bus := .writeOkay }) ∧
    (∀ k, k < 4 → off.toNat = 0x040 + 4 * k → ∃ t, step s = .next t ∧ LaneWritten s.iv t.iv k v ∧
      t = { s with iv := t.iv, inputs := rest, bus := .writeOkay }) ∧
    (∀ k, k < 16 → off.toNat = 0x080 + 4 * k → ∃ t, step s = .next t ∧ LaneWritten s.din t.din k v ∧
      t = { s with din := t.din, inputs := rest, bus := .writeOkay })

/-- 20_memory.md R56, R57: writes to STATUS, SCTR0, SCTR1, DOUT0 to DOUT15 and the reserved offsets are ignored. -/
def Obligations.ReadOnlyAndReservedWritesAreIgnored : Prop :=
  ∀ (s : State) (rest : List Input) (off : BitVec 12) (v : Word), off.toNat % 4 = 0 →
    ServesNext (.write off 4 v) rest s →
    (0x004 ≤ off.toNat ∧ off.toNat ≤ 0x00C) ∨ (0x038 ≤ off.toNat ∧ off.toNat ≤ 0x03C) ∨
      (0x050 ≤ off.toNat ∧ off.toNat ≤ 0x07C) ∨ 0x0C0 ≤ off.toNat →
    step s = .next { s with inputs := rest, bus := .writeOkay }

/-- 10_state.md R22, 60_exceptions.md R235: two states that differ only in the secrets answer every read alike.
While `rst_n` is low no read is served (70_reset_and_hazards.md R250); the two states then answer every step alike, and go on
differing at most in the secrets. That clause rests on the model's choices that the wait is a step (log entry 4) and that the
bus has one free value in each reset (log entry 20). -/
def Obligations.SecretsAreNeverRead : Prop :=
  ∀ (s t : State), s.SameButSecrets t →
    (∀ off width rest, ServesNext (.read off width) rest s →
      ∃ s' t', step s = .next s' ∧ step t = .next t' ∧ s'.bus = t'.bus ∧
        s' = { s with inputs := rest, bus := s'.bus } ∧ t' = { t with inputs := rest, bus := t'.bus }) ∧
    (s.rstN = false →
      ∃ s' t', step s = .next s' ∧ step t = .next t' ∧ s'.bus = t'.bus ∧ s'.SameButSecrets t')

/-- 20_memory.md R50, R64: a host address reaches the core exactly when it lies in the 4096 bytes from CORE_BASE, and
then under its offset. -/
def Obligations.HostAddressesReachTheWindow : Prop :=
  (∀ (off : BitVec 12) (v : Word),
    memWrite (Config.coreBase + off.toNat) v = some (.access (.write off 4 v)) ∧
    memRead (Config.coreBase + off.toNat) = some (.access (.read off 4))) ∧
  ∀ (a : Nat) (v : Word), (a < Config.coreBase ∨ Config.coreBase + 4096 ≤ a) → memWrite a v = none ∧ memRead a = none

/-- 30_encoding.md R82: the writes of `WRBUF R, b` leave b in R from byte 0, filled with 0x00 to a whole word. -/
def Obligations.WrbufFillsTheRegister : Prop :=
  ∀ (s : State) (b : List Byte), s.rstN = true →
    (∀ r, s.inputs = wrbuf r b →
      (r = .key → b.length ≤ 32 → ∃ t, Host.Core.run Sys2Proof.core (bufWords b.length) s = .next t ∧
        BufWritten s.key t.key b ∧ t = { s with key := t.key, inputs := [], bus := t.bus }) ∧
      (r = .nonce → b.length ≤ 8 → ∃ t, Host.Core.run Sys2Proof.core (bufWords b.length) s = .next t ∧
        BufWritten s.nonce t.nonce b ∧ t = { s with nonce := t.nonce, inputs := [], bus := t.bus }) ∧
      (r = .iv → b.length ≤ 16 → ∃ t, Host.Core.run Sys2Proof.core (bufWords b.length) s = .next t ∧
        BufWritten s.iv t.iv b ∧ t = { s with iv := t.iv, inputs := [], bus := t.bus }) ∧
      (r = .din → b.length ≤ 64 → ∃ t, Host.Core.run Sys2Proof.core (bufWords b.length) s = .next t ∧
        BufWritten s.din t.din b ∧ t = { s with din := t.din, inputs := [], bus := t.bus }))

/-! ## The step -/

/-- 40_command.md R90, 20_memory.md R60: the step that serves a write of a word to CMD is `Execute(w)`, with the write
acknowledged: the command's meaning for a word that decodes, IllegalCommand's for an illegal one; and `withFetchWord` brings
it about. -/
def Obligations.StepRunsTheDecodedCommand : Prop :=
  (∀ (s : State) (rest : List Input) (w : Word) (i : Instr) (t : State),
    ServesNext (.write 0x000 4 w) rest s → decode w = .ok i → exec i { s with inputs := rest } = .next t →
    step s = .next { t with bus := .writeOkay }) ∧
  (∀ (s : State) (rest : List Input) (w : Word), ServesNext (.write 0x000 4 w) rest s → illegalWord w = true →
    ∃ t, executeWord w { s with inputs := rest } = .next t ∧ t.err = .illegalCommand ∧
      step s = .next { t with bus := .writeOkay }) ∧
  (∀ (s : State) (nbits w : Nat) (i : Instr) (t : State),
    decodeTableWord nbits w = some i → exec i { s with rstN := true } = .next t →
    step (s.withFetchWord nbits w) = .next { t with bus := .writeOkay })

/-- 60_exceptions.md R242: "Between commands it does nothing." And 70_reset_and_hazards.md R250: while `rst_n` is low no access
is served. That a step in which nothing can be done is a step at all is the model's choice (log entries 4 and 6). -/
def Obligations.IdleStepDoesNothing : Prop :=
  ∀ s : State,
    (s.inputs = [] → step s = .next s) ∧
    (∀ waiting : List Access, s.rstN = false → s.inputs = waiting.map .access → step s = .next s)

/-- 70_reset_and_hazards.md R250, R253: whatever the state, and whether or not an access was cut, after `rst_n` has gone
low and high again every field of 10_state.md R20 holds its reset value; accesses in between, none or any number, are not
served: they wait until reset has ended (93_implementation_defined.md; log entry 4). That the fields have these values already
while `rst_n` is low is log entry 8. -/
def Obligations.ResetLeavesNoTrace : Prop :=
  ∀ (s : State) (low : Input) (a : Access) (between : List Access) (rest : List Input),
    (low = .resetLow ∨ low = .resetDuring a) →
    s.inputs = low :: (between.map .access ++ .resetHigh :: rest) →
    ∃ t u, step s = .next t ∧ t.rstN = false ∧ t.SameCore State.reset ∧ step t = .next u ∧
      u = { State.reset with
            inputs := between.map .access ++ rest, rngDrawn := s.rngDrawn, resets := s.resets + 1 }

/-- 70_reset_and_hazards.md R252: after reset every read of the window returns 0. -/
def Obligations.ResetReadsZero : Prop :=
  ∀ (off : BitVec 12) (rest : List Input), off.toNat % 4 = 0 →
    step { State.reset with inputs := .access (.read off 4) :: rest } =
      .next { State.reset with inputs := rest, bus := .readOkay 0 }

/-- 60_exceptions.md R232: no error is a trap: every step answers a next state. Where nothing can be done, with no input or
with accesses that are stuck while `rst_n` is low (70_reset_and_hazards.md R250, 93_implementation_defined.md), that it is the
same state is the model's choice (log entries 4 and 6). -/
def Obligations.EveryStepGoesOn : Prop := ∀ s : State, ∃ t, step s = .next t

/-! ## Invariants -/

/-- 10_state.md R44 holds after reset, and so does the clause about `rst_n` low that log entries 8 and 14 add. -/
def Obligations.ResetSatisfiesTheInvariants : Prop := State.reset.Inv

/-- 10_state.md R44: every step keeps the invariants, from any state that has them. The clause `resetHeld`, about `rst_n` low,
is the model's and not R44's (log entries 8 and 14). -/
def Obligations.StepKeepsTheInvariants : Prop := ∀ s t : State, s.Inv → step s = .next t → t.Inv

/-- 10_state.md R44: the invariants hold after any number of steps on any inputs. The clause `resetHeld`, about `rst_n` low, is
the model's and not R44's (log entries 8 and 14). -/
def Obligations.InvariantsHoldOnEveryRun : Prop :=
  ∀ (n : Nat) (inputs : List Input) (t : State),
    Host.Core.run Sys2Proof.core n { State.reset with inputs := inputs } = .next t → t.Inv

/-- 43_salsa20.md R172: the constants stay on the diagonal of a loaded Salsa20 state. -/
def Obligations.StepKeepsTheSalsaConstants : Prop :=
  ∀ s t : State, s.SalsaDiagonal → step s = .next t → t.SalsaDiagonal

/-! ## What every command keeps to -/

/-- 60_exceptions.md R226, R228: every command ends, with the first error that applies to it, or OK; before all of these,
an illegal word ends with IllegalCommand. -/
def Obligations.CommandsReportTheFirstError : Prop :=
  ∀ (w : Word) (s : State),
    (illegalWord w = true → ∃ t, executeWord w s = .next t ∧ t.err = .illegalCommand) ∧
    (∀ i, decode w = .ok i → ∃ t, executeWord w s = .next t ∧ t.err = firstError i s) ∧
    ∀ i : Instr, ∃ t, exec i s = .next t ∧ t.err = firstError i s

/-- 40_command.md R94, R95, 60_exceptions.md R230: a failing command writes the result fields and nothing else, and a
failing CBC command also closes the stream. -/
def Obligations.FailureWritesOnlyTheResult : Prop :=
  ∀ (i : Instr) (s t : State), exec i s = .next t → t.err ≠ .ok →
    (isCbcCommand i = true → FailedAborting t.err s t) ∧ (isCbcCommand i = false → Failed t.err s t)

/-- 10_state.md R26: every command rewrites all of DOUT, whatever the result fields held before; past the output it is zero,
and after an error all of it is. -/
def Obligations.EveryCommandRewritesDout : Prop :=
  ∀ (i : Instr) (s t : State), exec i s = .next t →
    t.outLen.toNat ≤ 64 ∧ (∀ j : Fin 64, t.outLen.toNat ≤ j.val → t.dout[j] = 0) ∧
    (t.err ≠ .ok → t.outLen = 0 ∧ t.dout = zeros 64) ∧
    ∀ (d : Bytes 64) (l : BitVec 7) (e : ErrCode), exec i { s with dout := d, outLen := l, err := e } = .next t

/-- 10_state.md R37, R38, R39, 43_salsa20.md R179: which commands write the cipher contexts. -/
def Obligations.ContextsHaveTheirOnlyWriters : Prop :=
  ∀ (i : Instr) (s t : State), exec i s = .next t → i ≠ .zeroize →
    ((∀ len, i ≠ .keyLoadAes len) → t.aesRk = s.aesRk ∧ t.aesKeyed = s.aesKeyed) ∧
    ((∀ len, i ≠ .keyLoadTf len) → t.tfK = s.tfK ∧ t.tfS = s.tfS ∧ t.tfKeyed = s.tfKeyed) ∧
    ((∀ len nlen, i ≠ .keyLoadSalsa len nlen) → (∀ len, i ≠ .keyLoadSalsaGen len) →
      t.salsaReady = s.salsaReady ∧ (∀ j : Fin 16, j.val ≠ 8 → j.val ≠ 9 → t.sx[j] = s.sx[j]) ∧
      (i ≠ .salsaProcess → t.sx = s.sx))

/-- 10_state.md R22 to R25: which commands write KEY, NONCE, IV and DIN. -/
def Obligations.DataRegistersHaveTheirOnlyWriters : Prop :=
  ∀ (i : Instr) (s t : State), exec i s = .next t → i ≠ .zeroize →
    t.key = s.key ∧ t.din = s.din ∧
    ((∀ len, i ≠ .keyLoadSalsaGen len) → t.nonce = s.nonce) ∧
    (i ≠ .cbcEncStartAes true → i ≠ .cbcEncStartTf true → t.iv = s.iv)

/-- 20_memory.md R63: only a successful generating command draws, 8 bytes for a nonce and 16 for an IV; no command
touches the inputs, the bus or `rst_n`. -/
def Obligations.OnlyGeneratingCommandsDraw : Prop :=
  ∀ (i : Instr) (s t : State), exec i s = .next t →
    t.rngDrawn = s.rngDrawn +
      (if t.err ≠ .ok then 0
       else match i with
        | .keyLoadSalsaGen _ => 8
        | .cbcEncStartAes true => 16
        | .cbcEncStartTf true => 16
        | _ => 0) ∧
    t.inputs = s.inputs ∧ t.bus = s.bus ∧ t.rstN = s.rstN ∧ t.resets = s.resets

/-- 44_modes.md R210: a command that is neither a CBC command nor ZEROIZE never changes the stream, whether it succeeds or
fails; and a KEY_LOAD of the stream's own cipher is refused. -/
def Obligations.OtherCommandsLeaveTheStream : Prop :=
  (∀ (i : Instr) (s t : State), isCbcCommand i = false → i ≠ .zeroize → exec i s = .next t →
    t.strm = s.strm ∧ t.strmSel = s.strmSel ∧ t.chain = s.chain ∧ t.held = s.held ∧ t.heldValid = s.heldValid) ∧
  ∀ (s : State) (len : Nat), s.strm ≠ .idle →
    (s.strmSel = .aes → ∃ t, exec (.keyLoadAes len) s = .next t ∧ Failed .sequenceError s t) ∧
    (s.strmSel = .tf → ∃ t, exec (.keyLoadTf len) s = .next t ∧ Failed .sequenceError s t)

/-! ## The commands one by one -/

/-- 41_aes.md R126: KEY_LOAD.AES. -/
def Obligations.KeyLoadAesLoadsTheSchedule : Prop :=
  BlockKeyLoad .keyLoadAes .aes fun s t =>
    t = { s with
          aesRk := aesRoundKeys s.key, aesKeyed := true
          dout := t.dout, outLen := t.outLen, err := t.err }

/-- 41_aes.md R121, R122: the loaded round keys hold KeyExpansion's 60 words. -/
def Obligations.AesScheduleFollowsTheRecurrence : Prop :=
  ∀ (K : Bytes 32),
    (∀ i, i < 8 → scheduleWord (aesRoundKeys K) i = slice K (4 * i) 4) ∧
    (∀ i, 8 ≤ i → i < 60 →
      scheduleWord (aesRoundKeys K) i =
        xorBytes (scheduleWord (aesRoundKeys K) (i - 8))
          (if i % 8 = 0 then
            xorBytes (subWord (rotWord (scheduleWord (aesRoundKeys K) (i - 1))))
              #v[BitVec.ofNat 8 (2 ^ (i / 8 - 1)), 0, 0, 0]
           else if i % 8 = 4 then subWord (scheduleWord (aesRoundKeys K) (i - 1))
           else scheduleWord (aesRoundKeys K) (i - 1)))

/-- 42_twofish.md R156: KEY_LOAD.TF. -/
def Obligations.KeyLoadTfLoadsTheSchedule : Prop :=
  BlockKeyLoad .keyLoadTf .tf fun s t =>
    t = { s with
          tfK := tfSubkeys s.key, tfS := tfSWords s.key, tfKeyed := true
          dout := t.dout, outLen := t.outLen, err := t.err }

/-- 42_twofish.md R146, R150, R152: the S words and the subkey pairs. -/
def Obligations.TwofishKeyMaterial : Prop :=
  ∀ (K : Bytes 32),
    (∀ i : Fin 4, ∀ r, r < 4 →
      wordByte (tfSWords K)[i] r = gfDot 0x14D (rsMatrix.getD r []) ((List.range 8).map fun c => byteAt K (8 * i.val + c))) ∧
    (∀ i, i < 20 →
      let a := tfH (BitVec.ofNat 32 (2 * i) * 0x01010101) #v[le32 K 0, le32 K 8, le32 K 16, le32 K 24]
      let b := (tfH (BitVec.ofNat 32 (2 * i + 1) * 0x01010101) #v[le32 K 4, le32 K 12, le32 K 20, le32 K 28]).rotateLeft 8
      subkey (tfSubkeys K) (2 * i) = a + b ∧ subkey (tfSubkeys K) (2 * i + 1) = (a + 2 * b).rotateLeft 9)

/-- 43_salsa20.md R181, R172: KEY_LOAD.SALSA and KEY_LOAD.SALSA.GEN. -/
def Obligations.KeyLoadSalsaSeedsTheState : Prop :=
  ∀ s : State,
    (∀ len nlen, (len ≠ 32 ∨ nlen ≠ 8) →
      ∃ t, exec (.keyLoadSalsa len nlen) s = .next t ∧ Failed .configurationError s t) ∧
    (∃ t, exec (.keyLoadSalsa 32 8) s = .next t ∧ Output [] t ∧ SalsaLoaded s.key s.nonce t.sx ∧
      t = { s with sx := t.sx, salsaReady := true, dout := t.dout, outLen := t.outLen, err := t.err }) ∧
    (∀ len, len ≠ 32 → ∃ t, exec (.keyLoadSalsaGen len) s = .next t ∧ Failed .configurationError s t) ∧
    (∃ t, exec (.keyLoadSalsaGen 32) s = .next t ∧ Output [] t ∧ SalsaLoaded s.key t.nonce t.sx ∧
      (∀ j : Fin 8, t.nonce[j] = Config.rngByte (s.rngDrawn + j.val)) ∧
      t = { s with
            nonce := t.nonce, sx := t.sx, salsaReady := true, rngDrawn := s.rngDrawn + 8
            dout := t.dout, outLen := t.outLen, err := t.err })

/-- 41_aes.md R127, R128, 42_twofish.md R157, R158: the block commands. -/
def Obligations.BlockCommandsTransformOneBlock : Prop :=
  BlockCommand .blockEncAes .aes (fun s => aesCipher s.aesRk) ∧
  BlockCommand .blockDecAes .aes (fun s => aesInvCipher s.aesRk) ∧
  BlockCommand .blockEncTf .tf (fun s => tfEncrypt s.tfK s.tfS) ∧
  BlockCommand .blockDecTf .tf (fun s => tfDecrypt s.tfK s.tfS)

/-- 43_salsa20.md R182, R180, R178: SALSA_PROCESS; the 64-bit counter goes up by one, modulo 2^64. -/
def Obligations.SalsaProcessXorsAndCounts : Prop :=
  ∀ s : State,
    (s.salsaReady = false → ∃ t, exec .salsaProcess s = .next t ∧ Failed .sequenceError s t) ∧
    (s.salsaReady = true →
      ∃ t, exec .salsaProcess s = .next t ∧ t.err = .ok ∧ t.outLen = 64 ∧
        (∀ j : Fin 64, t.dout[j] = s.din[j] ^^^ (salsaBlock s.sx)[j]) ∧
        (t.sx[9] ++ t.sx[8] : BitVec 64) = (s.sx[9] ++ s.sx[8] : BitVec 64) + 1 ∧
        (∀ j : Fin 16, j.val ≠ 8 → j.val ≠ 9 → t.sx[j] = s.sx[j]) ∧
        t = { s with sx := t.sx, dout := t.dout, outLen := t.outLen, err := t.err })

/-- 44_modes.md R192, R193, R194: the ECB commands. -/
def Obligations.EcbCommandsTransformEachBlock : Prop :=
  EcbCommand .ecbEncAes .aes (fun s => aesCipher s.aesRk) ∧
  EcbCommand .ecbEncTf .tf (fun s => tfEncrypt s.tfK s.tfS) ∧
  EcbCommand .ecbDecAes .aes (fun s => aesInvCipher s.aesRk) ∧
  EcbCommand .ecbDecTf .tf (fun s => tfDecrypt s.tfK s.tfS)

/-- 44_modes.md R198: CBC_ENC_START, with the IV supplied and with it drawn. -/
def Obligations.CbcEncStartOpensAStream : Prop := EncStart .cbcEncStartAes .aes ∧ EncStart .cbcEncStartTf .tf

/-- 44_modes.md R199: CBC_ENC_UPDATE. -/
def Obligations.CbcEncUpdateChainsOneBlock : Prop :=
  ∀ (s : State) (len : Nat),
    (s.strm ≠ .enc → ∃ t, exec (.cbcEncUpdate len) s = .next t ∧ FailedAborting .sequenceError s t) ∧
    (s.strm = .enc →
      (len ≠ 16 → ∃ t, exec (.cbcEncUpdate len) s = .next t ∧ FailedAborting .invalidLengthError s t) ∧
      (len = 16 → ∃ t, exec (.cbcEncUpdate len) s = .next t ∧ Output t.chain.toList t ∧
        (s.strmSel = .aes → t.chain = aesCipher s.aesRk (Vector.ofFn fun j => s.din[j.val] ^^^ s.chain[j])) ∧
        (s.strmSel = .tf → t.chain = tfEncrypt s.tfK s.tfS (Vector.ofFn fun j => s.din[j.val] ^^^ s.chain[j])) ∧
        t = { s with chain := t.chain, dout := t.dout, outLen := t.outLen, err := t.err }))

/-- 44_modes.md R200, R196: CBC_ENC_FINAL encrypts the rest, filled with bytes of value 16 - LEN. -/
def Obligations.CbcEncFinalPadsAndCloses : Prop :=
  ∀ (s : State) (len : Nat),
    (s.strm ≠ .enc → ∃ t, exec (.cbcEncFinal len) s = .next t ∧ FailedAborting .sequenceError s t) ∧
    (s.strm = .enc →
      (15 < len → ∃ t, exec (.cbcEncFinal len) s = .next t ∧ FailedAborting .invalidLengthError s t) ∧
      (len ≤ 15 → ∃ t c, exec (.cbcEncFinal len) s = .next t ∧ Output c.toList t ∧
        (let b : Block := Vector.ofFn fun j => (if j.val < len then s.din[j.val] else BitVec.ofNat 8 (16 - len)) ^^^ s.chain[j]
         (s.strmSel = .aes → c = aesCipher s.aesRk b) ∧ (s.strmSel = .tf → c = tfEncrypt s.tfK s.tfS b)) ∧
        t = { s with
              strm := .idle, strmSel := .aes, chain := zeros 16
              dout := t.dout, outLen := t.outLen, err := t.err }))

/-- 44_modes.md R205: CBC_DEC_START. -/
def Obligations.CbcDecStartOpensAStream : Prop := DecStart .cbcDecStartAes .aes ∧ DecStart .cbcDecStartTf .tf

/-- 44_modes.md R207, R202: CBC_DEC_UPDATE outputs the block before and holds the new one. -/
def Obligations.CbcDecUpdateLagsOneBlock : Prop :=
  ∀ (s : State) (len : Nat),
    (s.strm ≠ .dec → ∃ t, exec (.cbcDecUpdate len) s = .next t ∧ FailedAborting .sequenceError s t) ∧
    (s.strm = .dec →
      (len ≠ 16 → ∃ t, exec (.cbcDecUpdate len) s = .next t ∧ FailedAborting .invalidLengthError s t) ∧
      (len = 16 → ∃ t, exec (.cbcDecUpdate len) s = .next t ∧
        (s.heldValid = true → Output s.held.toList t) ∧ (s.heldValid = false → Output [] t) ∧
        (∀ j : Fin 16, t.chain[j] = s.din[j.val]) ∧
        (∀ j : Fin 16,
          (s.strmSel = .aes → t.held[j] = (aesInvCipher s.aesRk t.chain)[j] ^^^ s.chain[j]) ∧
          (s.strmSel = .tf → t.held[j] = (tfDecrypt s.tfK s.tfS t.chain)[j] ^^^ s.chain[j])) ∧
        t = { s with
              chain := t.chain, held := t.held, heldValid := true
              dout := t.dout, outLen := t.outLen, err := t.err }))

/-- 44_modes.md R208, R197: CBC_DEC_FINAL checks the padding of the held block and outputs the rest of it. -/
def Obligations.CbcDecFinalStripsThePadding : Prop :=
  ∀ (s : State) (len : Nat),
    (s.strm ≠ .dec → ∃ t, exec (.cbcDecFinal len) s = .next t ∧ FailedAborting .sequenceError s t) ∧
    (s.strm = .dec →
      (16 ≤ len → ∃ t, exec (.cbcDecFinal len) s = .next t ∧ FailedAborting .invalidLengthError s t) ∧
      (len < 16 ∧ (len ≠ 0 ∨ s.heldValid = false ∨ ¬ GoodPadding s.held) →
        ∃ t, exec (.cbcDecFinal len) s = .next t ∧ FailedAborting .formatError s t) ∧
      (len = 0 ∧ s.heldValid = true ∧ GoodPadding s.held →
        ∃ t, exec (.cbcDecFinal len) s = .next t ∧ Output (s.held.toList.take (16 - s.held[15].toNat)) t ∧
          t = { s with
                strm := .idle, strmSel := .aes, chain := zeros 16, held := zeros 16, heldValid := false
                dout := t.dout, outLen := t.outLen, err := t.err }))

/-- 40_command.md R104: CBC_ABORT closes the stream, open or not, and outputs nothing. -/
def Obligations.CbcAbortClosesTheStream : Prop :=
  ∀ s : State, ∃ t, exec .cbcAbort s = .next t ∧ Output [] t ∧
    t = { s with
          strm := .idle, strmSel := .aes, chain := zeros 16, held := zeros 16, heldValid := false
          dout := t.dout, outLen := t.outLen, err := t.err }

/-- 40_command.md R103: ZEROIZE puts every field of 10_state.md R20 at its reset value. -/
def Obligations.ZeroizeRestoresReset : Prop :=
  ∀ s : State, ∃ t, exec .zeroize s = .next t ∧ t.SameCore State.reset ∧
    t.rstN = s.rstN ∧ t.inputs = s.inputs ∧ t.bus = s.bus ∧ t.rngDrawn = s.rngDrawn ∧ t.resets = s.resets

/-! ## The algorithms -/

/-- 41_aes.md R129: AES decryption undoes encryption, under any round keys; so BLOCK_DEC.AES undoes BLOCK_ENC.AES. -/
def Obligations.AesDecryptUndoesEncrypt : Prop :=
  (∀ (rk : Vector Block 15) (b : Block), aesInvCipher rk (aesCipher rk b) = b) ∧
  ∀ s t u : State, exec .blockEncAes s = .next t → t.err = .ok →
    exec .blockDecAes { t with din := t.dout } = .next u → u.err = .ok ∧ u.output = s.din.toList.take 16

/-- 42_twofish.md R159: Twofish decryption undoes encryption, under any subkeys. -/
def Obligations.TwofishDecryptUndoesEncrypt : Prop :=
  ∀ (K : Words 40) (S : Words 4) (b : Block), tfDecrypt K S (tfEncrypt K S b) = b

/-- 41_aes.md R112, R114: SBOX is the affine map of the inverse in GF(2^8), and INV_SBOX undoes it. -/
def Obligations.SboxIsTheAffineMapOfTheInverse : Prop :=
  ∀ x : Byte,
    (∃ y : Byte, (x = 0 → y = 0) ∧ (x ≠ 0 → gfmul x y 0x11B = 1) ∧
      ∀ i, i < 8 → (sbox x).getLsbD i =
        (y.getLsbD i ^^ y.getLsbD ((i + 4) % 8) ^^ y.getLsbD ((i + 5) % 8) ^^ y.getLsbD ((i + 6) % 8)
          ^^ y.getLsbD ((i + 7) % 8) ^^ (0x63#8).getLsbD i)) ∧
    invSbox (sbox x) = x

/-- 41_aes.md R114, R116, R118, R119: the inverse round operations undo the round operations on every state; AddRoundKey is its
own inverse. -/
def Obligations.InverseRoundOperations : Prop :=
  ∀ s : AesState,
    invMixColumns (mixColumns s) = s ∧ invShiftRows (shiftRows s) = s ∧ invSubBytes (subBytes s) = s ∧
    (∀ k : Block, addRoundKey (addRoundKey s k) k = s) ∧
    ∀ r c : Fin 4, (invShiftRows s)[r.val][(c.val + r.val) % 4] = s[r.val][c.val]

/-- 42_twofish.md R142, R143, R144: the q tables are what the construction gives, and they are permutations. -/
def Obligations.QTablesFollowTheConstruction : Prop :=
  (∀ x : Byte, q0 x = q0Of x ∧ q1 x = q1Of x) ∧ Function.Bijective q0 ∧ Function.Bijective q1

/-- 42_twofish.md R149: g is MDS over the four key-dependent S-boxes, and each of them is a permutation. -/
def Obligations.TwofishSboxesArePermutations : Prop :=
  ∀ (S : Words 4),
    (∀ X : Word, tfG S X =
      mdsMul (tfSbox S 0 (wordByte X 0)) (tfSbox S 1 (wordByte X 1)) (tfSbox S 2 (wordByte X 2)) (tfSbox S 3 (wordByte X 3))) ∧
    ∀ j, j < 4 → Function.Bijective (tfSbox S j)

/-- 43_salsa20.md R183: after two loads of the same key and nonce, supplied or generated, the command of index i (from 0) XORs
its unit with the keystream block at counter i, and so the two, driven in lockstep, undo each other. -/
def Obligations.SalsaLockstep : Prop :=
  ∀ (loadA loadB : Instr) (a b a' b' : State) (xs : List (Bytes 64)),
    (loadA = .keyLoadSalsa 32 8 ∨ loadA = .keyLoadSalsaGen 32) → (loadB = .keyLoadSalsa 32 8 ∨ loadB = .keyLoadSalsaGen 32) →
    exec loadA a = .next a' → exec loadB b = .next b' → a.key = b.key → a'.nonce = b'.nonce →
    (∀ i, (processUnits xs a')[i]? = xs[i]?.map fun x => xorBytes x (salsaBlock (atCounter a'.sx i))) ∧
    (∀ i, atCounter a'.sx i = atCounter b'.sx i) ∧
    processUnits (processUnits xs a') b' = xs

/-- 44_modes.md R194: ECB_DEC of ECB_ENC's output gives the input back. -/
def Obligations.EcbDecryptUndoesEncrypt : Prop :=
  ∀ (s t u : State) (len : Nat) (enc dec : Instr),
    (enc = .ecbEncAes len ∧ dec = .ecbDecAes len) ∨ (enc = .ecbEncTf len ∧ dec = .ecbDecTf len) →
    exec enc s = .next t → t.err = .ok → exec dec { t with din := t.dout } = .next u →
    u.err = .ok ∧ u.output = s.din.toList.take len

/-- 44_modes.md R195, R192: a buffer split at a block boundary gives the concatenated outputs. -/
def Obligations.EcbSplitsAtBlockBoundaries : Prop :=
  ∀ (f : Block → Block) (a b : List Byte), a.length % 16 = 0 → b.length % 16 = 0 →
    ecbBuffer f (a ++ b) = ecbBuffer f a ++ ecbBuffer f b ∧ (ecbBuffer f (a ++ b)).length = (a ++ b).length

/-- 30_encoding.md R84: a block command and the ECB command of 16 bytes end alike, in success and in failure. -/
def Obligations.BlockCommandsAreEcbOfSixteen : Prop :=
  ∀ s : State,
    exec .blockEncAes s = exec (.ecbEncAes 16) s ∧ exec .blockDecAes s = exec (.ecbDecAes 16) s ∧
    exec .blockEncTf s = exec (.ecbEncTf 16) s ∧ exec .blockDecTf s = exec (.ecbDecTf 16) s

/-! ## The CBC streams -/

/-- 44_modes.md R211: the encryption command stream outputs the IV and the chained ciphertext of the padded plaintext. -/
def Obligations.EncryptionStreamIsCbc : Prop :=
  ∀ (c : CipherSel) (gen : Bool) (P : List Byte) (s : State), s.strm = .idle → s.keyed c = true →
    let v := if gen then rngBytes 16 s else s.iv
    let r := encryptStream c gen P s
    r.2 = v.toList ++ cbcChain (blockEncrypt s c) v (paddedBlocks P) ∧
    r.2.length = 16 + 16 * (P.length / 16 + 1) ∧ r.1.err = .ok ∧ r.1.strm = .idle

/-- 44_modes.md R212: the decryption command stream succeeds exactly on a stream with an IV, a whole positive number of
blocks and good padding, and then outputs the recovered blocks, the last one stripped; else it ends in FormatError. That a
bad stream ENDS there, the host issuing nothing more after the command that failed, is log entry 15. -/
def Obligations.DecryptionStreamIsCbc : Prop :=
  ∀ (c : CipherSel) (S : List Byte) (s : State), s.strm = .idle → s.keyed c = true →
    let k := (S.length - 16) / 16
    let good := 32 ≤ S.length ∧ (S.length - 16) % 16 = 0 ∧ GoodPadding (recovered (blockDecrypt s c) S k)
    let r := decryptStream c S s
    (good → r.1.err = .ok ∧
      r.2 = ((List.range (k - 1)).flatMap fun i => (recovered (blockDecrypt s c) S (i + 1)).toList) ++
        unpad (recovered (blockDecrypt s c) S k)) ∧
    (¬ good → r.1.err = .formatError) ∧ r.1.strm = .idle

/-- 44_modes.md R213: decrypting the encryption stream of any plaintext gives the plaintext back. -/
def Obligations.CbcStreamRoundTrip : Prop :=
  ∀ (c : CipherSel) (gen : Bool) (P : List Byte) (s : State), s.strm = .idle → s.keyed c = true →
    let e := encryptStream c gen P s
    let d := decryptStream c e.2 e.1
    d.1.err = .ok ∧ d.2 = P
end

