-- ==== Sys2Proof/Laws/Bytes.lean ====
section
/-! SUPPORT. What the byte-string and packing operations answer, element by element. -/

namespace Sys2Proof.Machine

open Sys2Proof

@[simp] theorem byteAt_of_lt {n i : Nat} (s : Bytes n) (h : i < n) : byteAt s i = s[i] := by
  simp [byteAt, h]

@[simp] theorem getElem_slice {m i n j : Nat} (s : Bytes m) (h : j < n) : (slice s i n)[j] = byteAt s (i + j) := by
  simp [slice]

@[simp] theorem getElem_xorBytes {n j : Nat} (a b : Bytes n) (h : j < n) : (xorBytes a b)[j] = a[j] ^^^ b[j] := by
  simp [xorBytes]

@[simp] theorem getElem_fillTo {n j : Nat} (l : List Byte) (h : j < n) : (fillTo n l)[j] = l.getD j 0 := by
  simp [fillTo]

theorem getElem_writeLane {n k j : Nat} (r : Bytes n) (v : Word) (h : j < n) :
    (writeLane r k v)[j] = if j / 4 = k then wordByte v (j % 4) else r[j] := by
  simp [writeLane]

/-- Filling a string that is not too long appends zeros. -/
theorem toList_fillTo {n : Nat} (l : List Byte) (h : l.length ≤ n) :
    (fillTo n l).toList = l ++ List.replicate (n - l.length) 0 := by
  apply List.ext_getElem
  · simp; omega
  · intro i h₁ h₂
    simp only [Vector.length_toList] at h₁
    by_cases hi : i < l.length
    · simp [fillTo, List.getElem_append_left, hi]
    · simp only [fillTo, Vector.getElem_toList, Vector.getElem_ofFn, List.getElem_append_right (Nat.le_of_not_lt hi),
        List.getElem_replicate, List.getD_eq_getElem?_getD]
      rw [List.getElem?_eq_none (by omega)]
      rfl

/-- A full string is its own filling. -/
theorem fillTo_toList {n : Nat} (b : Bytes n) : fillTo n b.toList = b := by
  apply Vector.ext
  intro i h
  simp [fillTo]

theorem fillTo_nil (n : Nat) : fillTo n [] = zeros n := by
  apply Vector.ext
  intro i h
  simp [fillTo]

/-- Byte j of the word of four bytes. -/
theorem wordByte_wordOf (a b c d : Byte) :
    wordByte (wordOf a b c d) 0 = a ∧ wordByte (wordOf a b c d) 1 = b ∧
    wordByte (wordOf a b c d) 2 = c ∧ wordByte (wordOf a b c d) 3 = d := by
  refine ⟨?_, ?_, ?_, ?_⟩ <;>
    (apply BitVec.eq_of_getLsbD_eq
     intro i h
     simp only [wordByte, wordOf, BitVec.getLsbD_extractLsb', BitVec.getLsbD_append, h, decide_true, Bool.true_and]
     repeat' split
     all_goals first | omega | (congr 1; omega))

/-- A word is the word of its four bytes. -/
theorem wordOf_wordByte (w : Word) : wordOf (wordByte w 0) (wordByte w 1) (wordByte w 2) (wordByte w 3) = w := by
  apply BitVec.eq_of_getLsbD_eq
  intro i h
  simp only [wordOf, wordByte, BitVec.getLsbD_append, BitVec.getLsbD_extractLsb']
  by_cases h₁ : i < 8
  · simp [h₁]
  · by_cases h₂ : i - 8 < 8
    · simp [h₁, h₂, show 8 + (i - 8) = i by omega]
    · by_cases h₃ : i - 8 - 8 < 8
      · simp [h₁, h₂, h₃, show 16 + (i - 8 - 8) = i by omega]
      · simp [h₁, h₂, h₃, show 24 + (i - 8 - 8 - 8) = i by omega, show i - 8 - 8 - 8 < 8 by omega]

/-- Reading back the lane just written (20_memory.md R52). -/
theorem le32_writeLane_same {n k : Nat} (r : Bytes n) (v : Word) (h : 4 * k + 3 < n) :
    le32 (writeLane r k v) (4 * k) = v := by
  have e0 : 4 * k / 4 = k := by omega
  have e1 : (4 * k + 1) / 4 = k := by omega
  have e2 : (4 * k + 2) / 4 = k := by omega
  have e3 : (4 * k + 3) / 4 = k := by omega
  have m0 : 4 * k % 4 = 0 := by omega
  have m1 : (4 * k + 1) % 4 = 1 := by omega
  have m2 : (4 * k + 2) % 4 = 2 := by omega
  have m3 : (4 * k + 3) % 4 = 3 := by omega
  rw [le32, byteAt_of_lt _ (by omega), byteAt_of_lt _ (by omega), byteAt_of_lt _ (by omega), byteAt_of_lt _ h]
  simp only [getElem_writeLane, e0, e1, e2, e3, m0, m1, m2, m3, if_true]
  exact wordOf_wordByte v

/-- A lane's write leaves the other lanes alone (20_memory.md R52). -/
theorem le32_writeLane_other {n k j : Nat} (r : Bytes n) (v : Word) (hj : 4 * j + 3 < n) (h : j ≠ k) :
    le32 (writeLane r k v) (4 * j) = le32 r (4 * j) := by
  have e0 : ¬ 4 * j / 4 = k := by omega
  have e1 : ¬ (4 * j + 1) / 4 = k := by omega
  have e2 : ¬ (4 * j + 2) / 4 = k := by omega
  have e3 : ¬ (4 * j + 3) / 4 = k := by omega
  simp only [le32]
  rw [byteAt_of_lt _ (by omega), byteAt_of_lt _ (by omega), byteAt_of_lt _ (by omega), byteAt_of_lt _ hj,
    byteAt_of_lt _ (by omega), byteAt_of_lt _ (by omega), byteAt_of_lt _ (by omega), byteAt_of_lt _ hj]
  simp only [getElem_writeLane, e0, e1, e2, e3, if_false]

end Sys2Proof.Machine
end

