-- ==== Sys2Proof/Laws/Encoding.lean ====
section
/-! SUPPORT. Packing a word's fields and extracting them undo each other (30_encoding.md R70, R71). -/

namespace Sys2Proof

theorem fields_word (f : Fields) : fields f.word = f := by
  obtain ⟨op, sel, gen, rsvA, len, rsvB, nlen, rsvC⟩ := f
  simp only [fields, Fields.word, Fields.mk.injEq]
  refine ⟨?_, ?_, ?_, ?_, ?_, ?_, ?_, ?_⟩ <;>
    (apply BitVec.eq_of_getLsbD_eq
     intro i h
     simp only [BitVec.getLsbD_extractLsb', BitVec.getLsbD_append, h, decide_true, Bool.true_and]
     repeat' split
     all_goals first | omega | (congr 1; omega))

theorem word_fields (w : Word) : (fields w).word = w := by
  apply BitVec.eq_of_getLsbD_eq
  intro i h
  simp only [fields, Fields.word, BitVec.getLsbD_append, BitVec.getLsbD_extractLsb']
  repeat' split
  all_goals
    rw [decide_eq_true (by omega), Bool.true_and]
    congr 1
    omega

/-- A command word's fields are those it was built from. -/
theorem fields_commandWord (op : BitVec 8) (sel : BitVec 2) (gen : BitVec 1) (len nlen : Nat) :
    fields (commandWord op sel gen len nlen) =
      { op := op, sel := sel, gen := gen, rsvA := 0, len := BitVec.ofNat 7 len,
        rsvB := 0, nlen := BitVec.ofNat 7 nlen, rsvC := 0 } :=
  fields_word _

end Sys2Proof
end

