-- ==== Sys2Proof/Laws/State.lean ====
section
/-! SUPPORT. One lemma per field per update: each says what one field is after one shared update of the state. -/

namespace Sys2Proof.Machine

open Sys2Proof

variable (s : State)

@[simp] theorem complete_key (out : List Byte) : (complete out s).key = s.key := rfl
@[simp] theorem complete_nonce (out : List Byte) : (complete out s).nonce = s.nonce := rfl
@[simp] theorem complete_iv (out : List Byte) : (complete out s).iv = s.iv := rfl
@[simp] theorem complete_din (out : List Byte) : (complete out s).din = s.din := rfl
@[simp] theorem complete_dout (out : List Byte) : (complete out s).dout = fillTo 64 out := rfl
@[simp] theorem complete_err (out : List Byte) : (complete out s).err = .ok := rfl
@[simp] theorem complete_outLen (out : List Byte) : (complete out s).outLen = BitVec.ofNat 7 out.length := rfl
@[simp] theorem complete_aesRk (out : List Byte) : (complete out s).aesRk = s.aesRk := rfl
@[simp] theorem complete_aesKeyed (out : List Byte) : (complete out s).aesKeyed = s.aesKeyed := rfl
@[simp] theorem complete_tfK (out : List Byte) : (complete out s).tfK = s.tfK := rfl
@[simp] theorem complete_tfS (out : List Byte) : (complete out s).tfS = s.tfS := rfl
@[simp] theorem complete_tfKeyed (out : List Byte) : (complete out s).tfKeyed = s.tfKeyed := rfl
@[simp] theorem complete_sx (out : List Byte) : (complete out s).sx = s.sx := rfl
@[simp] theorem complete_salsaReady (out : List Byte) : (complete out s).salsaReady = s.salsaReady := rfl
@[simp] theorem complete_strm (out : List Byte) : (complete out s).strm = s.strm := rfl
@[simp] theorem complete_strmSel (out : List Byte) : (complete out s).strmSel = s.strmSel := rfl
@[simp] theorem complete_chain (out : List Byte) : (complete out s).chain = s.chain := rfl
@[simp] theorem complete_held (out : List Byte) : (complete out s).held = s.held := rfl
@[simp] theorem complete_heldValid (out : List Byte) : (complete out s).heldValid = s.heldValid := rfl
@[simp] theorem complete_rstN (out : List Byte) : (complete out s).rstN = s.rstN := rfl
@[simp] theorem complete_inputs (out : List Byte) : (complete out s).inputs = s.inputs := rfl
@[simp] theorem complete_bus (out : List Byte) : (complete out s).bus = s.bus := rfl
@[simp] theorem complete_rngDrawn (out : List Byte) : (complete out s).rngDrawn = s.rngDrawn := rfl
@[simp] theorem complete_resets (out : List Byte) : (complete out s).resets = s.resets := rfl

@[simp] theorem recordError_key (e : ErrCode) : (recordError e s).key = s.key := rfl
@[simp] theorem recordError_nonce (e : ErrCode) : (recordError e s).nonce = s.nonce := rfl
@[simp] theorem recordError_iv (e : ErrCode) : (recordError e s).iv = s.iv := rfl
@[simp] theorem recordError_din (e : ErrCode) : (recordError e s).din = s.din := rfl
@[simp] theorem recordError_dout (e : ErrCode) : (recordError e s).dout = zeros 64 := rfl
@[simp] theorem recordError_err (e : ErrCode) : (recordError e s).err = e := rfl
@[simp] theorem recordError_outLen (e : ErrCode) : (recordError e s).outLen = 0 := rfl
@[simp] theorem recordError_aesRk (e : ErrCode) : (recordError e s).aesRk = s.aesRk := rfl
@[simp] theorem recordError_aesKeyed (e : ErrCode) : (recordError e s).aesKeyed = s.aesKeyed := rfl
@[simp] theorem recordError_tfK (e : ErrCode) : (recordError e s).tfK = s.tfK := rfl
@[simp] theorem recordError_tfS (e : ErrCode) : (recordError e s).tfS = s.tfS := rfl
@[simp] theorem recordError_tfKeyed (e : ErrCode) : (recordError e s).tfKeyed = s.tfKeyed := rfl
@[simp] theorem recordError_sx (e : ErrCode) : (recordError e s).sx = s.sx := rfl
@[simp] theorem recordError_salsaReady (e : ErrCode) : (recordError e s).salsaReady = s.salsaReady := rfl
@[simp] theorem recordError_strm (e : ErrCode) : (recordError e s).strm = s.strm := rfl
@[simp] theorem recordError_strmSel (e : ErrCode) : (recordError e s).strmSel = s.strmSel := rfl
@[simp] theorem recordError_chain (e : ErrCode) : (recordError e s).chain = s.chain := rfl
@[simp] theorem recordError_held (e : ErrCode) : (recordError e s).held = s.held := rfl
@[simp] theorem recordError_heldValid (e : ErrCode) : (recordError e s).heldValid = s.heldValid := rfl
@[simp] theorem recordError_rstN (e : ErrCode) : (recordError e s).rstN = s.rstN := rfl
@[simp] theorem recordError_inputs (e : ErrCode) : (recordError e s).inputs = s.inputs := rfl
@[simp] theorem recordError_bus (e : ErrCode) : (recordError e s).bus = s.bus := rfl
@[simp] theorem recordError_rngDrawn (e : ErrCode) : (recordError e s).rngDrawn = s.rngDrawn := rfl
@[simp] theorem recordError_resets (e : ErrCode) : (recordError e s).resets = s.resets := rfl

@[simp] theorem closeStream_key : (closeStream s).key = s.key := rfl
@[simp] theorem closeStream_nonce : (closeStream s).nonce = s.nonce := rfl
@[simp] theorem closeStream_iv : (closeStream s).iv = s.iv := rfl
@[simp] theorem closeStream_din : (closeStream s).din = s.din := rfl
@[simp] theorem closeStream_dout : (closeStream s).dout = s.dout := rfl
@[simp] theorem closeStream_err : (closeStream s).err = s.err := rfl
@[simp] theorem closeStream_outLen : (closeStream s).outLen = s.outLen := rfl
@[simp] theorem closeStream_aesRk : (closeStream s).aesRk = s.aesRk := rfl
@[simp] theorem closeStream_aesKeyed : (closeStream s).aesKeyed = s.aesKeyed := rfl
@[simp] theorem closeStream_tfK : (closeStream s).tfK = s.tfK := rfl
@[simp] theorem closeStream_tfS : (closeStream s).tfS = s.tfS := rfl
@[simp] theorem closeStream_tfKeyed : (closeStream s).tfKeyed = s.tfKeyed := rfl
@[simp] theorem closeStream_sx : (closeStream s).sx = s.sx := rfl
@[simp] theorem closeStream_salsaReady : (closeStream s).salsaReady = s.salsaReady := rfl
@[simp] theorem closeStream_strm : (closeStream s).strm = .idle := rfl
@[simp] theorem closeStream_strmSel : (closeStream s).strmSel = .aes := rfl
@[simp] theorem closeStream_chain : (closeStream s).chain = zeros 16 := rfl
@[simp] theorem closeStream_held : (closeStream s).held = zeros 16 := rfl
@[simp] theorem closeStream_heldValid : (closeStream s).heldValid = false := rfl
@[simp] theorem closeStream_rstN : (closeStream s).rstN = s.rstN := rfl
@[simp] theorem closeStream_inputs : (closeStream s).inputs = s.inputs := rfl
@[simp] theorem closeStream_bus : (closeStream s).bus = s.bus := rfl
@[simp] theorem closeStream_rngDrawn : (closeStream s).rngDrawn = s.rngDrawn := rfl
@[simp] theorem closeStream_resets : (closeStream s).resets = s.resets := rfl

@[simp] theorem afterDraw_key (n : Nat) : (afterDraw n s).key = s.key := rfl
@[simp] theorem afterDraw_nonce (n : Nat) : (afterDraw n s).nonce = s.nonce := rfl
@[simp] theorem afterDraw_iv (n : Nat) : (afterDraw n s).iv = s.iv := rfl
@[simp] theorem afterDraw_din (n : Nat) : (afterDraw n s).din = s.din := rfl
@[simp] theorem afterDraw_dout (n : Nat) : (afterDraw n s).dout = s.dout := rfl
@[simp] theorem afterDraw_err (n : Nat) : (afterDraw n s).err = s.err := rfl
@[simp] theorem afterDraw_outLen (n : Nat) : (afterDraw n s).outLen = s.outLen := rfl
@[simp] theorem afterDraw_aesRk (n : Nat) : (afterDraw n s).aesRk = s.aesRk := rfl
@[simp] theorem afterDraw_aesKeyed (n : Nat) : (afterDraw n s).aesKeyed = s.aesKeyed := rfl
@[simp] theorem afterDraw_tfK (n : Nat) : (afterDraw n s).tfK = s.tfK := rfl
@[simp] theorem afterDraw_tfS (n : Nat) : (afterDraw n s).tfS = s.tfS := rfl
@[simp] theorem afterDraw_tfKeyed (n : Nat) : (afterDraw n s).tfKeyed = s.tfKeyed := rfl
@[simp] theorem afterDraw_sx (n : Nat) : (afterDraw n s).sx = s.sx := rfl
@[simp] theorem afterDraw_salsaReady (n : Nat) : (afterDraw n s).salsaReady = s.salsaReady := rfl
@[simp] theorem afterDraw_strm (n : Nat) : (afterDraw n s).strm = s.strm := rfl
@[simp] theorem afterDraw_strmSel (n : Nat) : (afterDraw n s).strmSel = s.strmSel := rfl
@[simp] theorem afterDraw_chain (n : Nat) : (afterDraw n s).chain = s.chain := rfl
@[simp] theorem afterDraw_held (n : Nat) : (afterDraw n s).held = s.held := rfl
@[simp] theorem afterDraw_heldValid (n : Nat) : (afterDraw n s).heldValid = s.heldValid := rfl
@[simp] theorem afterDraw_rstN (n : Nat) : (afterDraw n s).rstN = s.rstN := rfl
@[simp] theorem afterDraw_inputs (n : Nat) : (afterDraw n s).inputs = s.inputs := rfl
@[simp] theorem afterDraw_bus (n : Nat) : (afterDraw n s).bus = s.bus := rfl
@[simp] theorem afterDraw_rngDrawn (n : Nat) : (afterDraw n s).rngDrawn = s.rngDrawn + n := rfl
@[simp] theorem afterDraw_resets (n : Nat) : (afterDraw n s).resets = s.resets := rfl

@[simp] theorem clearCore_key : (clearCore s).key = zeros 32 := rfl
@[simp] theorem clearCore_nonce : (clearCore s).nonce = zeros 8 := rfl
@[simp] theorem clearCore_iv : (clearCore s).iv = zeros 16 := rfl
@[simp] theorem clearCore_din : (clearCore s).din = zeros 64 := rfl
@[simp] theorem clearCore_dout : (clearCore s).dout = zeros 64 := rfl
@[simp] theorem clearCore_err : (clearCore s).err = .ok := rfl
@[simp] theorem clearCore_outLen : (clearCore s).outLen = 0 := rfl
@[simp] theorem clearCore_aesRk : (clearCore s).aesRk = Vector.replicate 15 (zeros 16) := rfl
@[simp] theorem clearCore_aesKeyed : (clearCore s).aesKeyed = false := rfl
@[simp] theorem clearCore_tfK : (clearCore s).tfK = zeroWords 40 := rfl
@[simp] theorem clearCore_tfS : (clearCore s).tfS = zeroWords 4 := rfl
@[simp] theorem clearCore_tfKeyed : (clearCore s).tfKeyed = false := rfl
@[simp] theorem clearCore_sx : (clearCore s).sx = zeroWords 16 := rfl
@[simp] theorem clearCore_salsaReady : (clearCore s).salsaReady = false := rfl
@[simp] theorem clearCore_strm : (clearCore s).strm = .idle := rfl
@[simp] theorem clearCore_strmSel : (clearCore s).strmSel = .aes := rfl
@[simp] theorem clearCore_chain : (clearCore s).chain = zeros 16 := rfl
@[simp] theorem clearCore_held : (clearCore s).held = zeros 16 := rfl
@[simp] theorem clearCore_heldValid : (clearCore s).heldValid = false := rfl
@[simp] theorem clearCore_rstN : (clearCore s).rstN = s.rstN := rfl
@[simp] theorem clearCore_inputs : (clearCore s).inputs = s.inputs := rfl
@[simp] theorem clearCore_bus : (clearCore s).bus = s.bus := rfl
@[simp] theorem clearCore_rngDrawn : (clearCore s).rngDrawn = s.rngDrawn := rfl
@[simp] theorem clearCore_resets : (clearCore s).resets = s.resets := rfl

@[simp] theorem loadAes_key : (loadAes s).key = s.key := rfl
@[simp] theorem loadAes_nonce : (loadAes s).nonce = s.nonce := rfl
@[simp] theorem loadAes_iv : (loadAes s).iv = s.iv := rfl
@[simp] theorem loadAes_din : (loadAes s).din = s.din := rfl
@[simp] theorem loadAes_dout : (loadAes s).dout = s.dout := rfl
@[simp] theorem loadAes_err : (loadAes s).err = s.err := rfl
@[simp] theorem loadAes_outLen : (loadAes s).outLen = s.outLen := rfl
@[simp] theorem loadAes_aesRk : (loadAes s).aesRk = aesRoundKeys s.key := rfl
@[simp] theorem loadAes_aesKeyed : (loadAes s).aesKeyed = true := rfl
@[simp] theorem loadAes_tfK : (loadAes s).tfK = s.tfK := rfl
@[simp] theorem loadAes_tfS : (loadAes s).tfS = s.tfS := rfl
@[simp] theorem loadAes_tfKeyed : (loadAes s).tfKeyed = s.tfKeyed := rfl
@[simp] theorem loadAes_sx : (loadAes s).sx = s.sx := rfl
@[simp] theorem loadAes_salsaReady : (loadAes s).salsaReady = s.salsaReady := rfl
@[simp] theorem loadAes_strm : (loadAes s).strm = s.strm := rfl
@[simp] theorem loadAes_strmSel : (loadAes s).strmSel = s.strmSel := rfl
@[simp] theorem loadAes_chain : (loadAes s).chain = s.chain := rfl
@[simp] theorem loadAes_held : (loadAes s).held = s.held := rfl
@[simp] theorem loadAes_heldValid : (loadAes s).heldValid = s.heldValid := rfl
@[simp] theorem loadAes_rstN : (loadAes s).rstN = s.rstN := rfl
@[simp] theorem loadAes_inputs : (loadAes s).inputs = s.inputs := rfl
@[simp] theorem loadAes_bus : (loadAes s).bus = s.bus := rfl
@[simp] theorem loadAes_rngDrawn : (loadAes s).rngDrawn = s.rngDrawn := rfl
@[simp] theorem loadAes_resets : (loadAes s).resets = s.resets := rfl

@[simp] theorem loadTf_key : (loadTf s).key = s.key := rfl
@[simp] theorem loadTf_nonce : (loadTf s).nonce = s.nonce := rfl
@[simp] theorem loadTf_iv : (loadTf s).iv = s.iv := rfl
@[simp] theorem loadTf_din : (loadTf s).din = s.din := rfl
@[simp] theorem loadTf_dout : (loadTf s).dout = s.dout := rfl
@[simp] theorem loadTf_err : (loadTf s).err = s.err := rfl
@[simp] theorem loadTf_outLen : (loadTf s).outLen = s.outLen := rfl
@[simp] theorem loadTf_aesRk : (loadTf s).aesRk = s.aesRk := rfl
@[simp] theorem loadTf_aesKeyed : (loadTf s).aesKeyed = s.aesKeyed := rfl
@[simp] theorem loadTf_tfK : (loadTf s).tfK = tfSubkeys s.key := rfl
@[simp] theorem loadTf_tfS : (loadTf s).tfS = tfSWords s.key := rfl
@[simp] theorem loadTf_tfKeyed : (loadTf s).tfKeyed = true := rfl
@[simp] theorem loadTf_sx : (loadTf s).sx = s.sx := rfl
@[simp] theorem loadTf_salsaReady : (loadTf s).salsaReady = s.salsaReady := rfl
@[simp] theorem loadTf_strm : (loadTf s).strm = s.strm := rfl
@[simp] theorem loadTf_strmSel : (loadTf s).strmSel = s.strmSel := rfl
@[simp] theorem loadTf_chain : (loadTf s).chain = s.chain := rfl
@[simp] theorem loadTf_held : (loadTf s).held = s.held := rfl
@[simp] theorem loadTf_heldValid : (loadTf s).heldValid = s.heldValid := rfl
@[simp] theorem loadTf_rstN : (loadTf s).rstN = s.rstN := rfl
@[simp] theorem loadTf_inputs : (loadTf s).inputs = s.inputs := rfl
@[simp] theorem loadTf_bus : (loadTf s).bus = s.bus := rfl
@[simp] theorem loadTf_rngDrawn : (loadTf s).rngDrawn = s.rngDrawn := rfl
@[simp] theorem loadTf_resets : (loadTf s).resets = s.resets := rfl

@[simp] theorem loadSalsa_key (N : Bytes 8) : (loadSalsa N s).key = s.key := rfl
@[simp] theorem loadSalsa_nonce (N : Bytes 8) : (loadSalsa N s).nonce = s.nonce := rfl
@[simp] theorem loadSalsa_iv (N : Bytes 8) : (loadSalsa N s).iv = s.iv := rfl
@[simp] theorem loadSalsa_din (N : Bytes 8) : (loadSalsa N s).din = s.din := rfl
@[simp] theorem loadSalsa_dout (N : Bytes 8) : (loadSalsa N s).dout = s.dout := rfl
@[simp] theorem loadSalsa_err (N : Bytes 8) : (loadSalsa N s).err = s.err := rfl
@[simp] theorem loadSalsa_outLen (N : Bytes 8) : (loadSalsa N s).outLen = s.outLen := rfl
@[simp] theorem loadSalsa_aesRk (N : Bytes 8) : (loadSalsa N s).aesRk = s.aesRk := rfl
@[simp] theorem loadSalsa_aesKeyed (N : Bytes 8) : (loadSalsa N s).aesKeyed = s.aesKeyed := rfl
@[simp] theorem loadSalsa_tfK (N : Bytes 8) : (loadSalsa N s).tfK = s.tfK := rfl
@[simp] theorem loadSalsa_tfS (N : Bytes 8) : (loadSalsa N s).tfS = s.tfS := rfl
@[simp] theorem loadSalsa_tfKeyed (N : Bytes 8) : (loadSalsa N s).tfKeyed = s.tfKeyed := rfl
@[simp] theorem loadSalsa_sx (N : Bytes 8) : (loadSalsa N s).sx = salsaLayout s.key N 0 0 := rfl
@[simp] theorem loadSalsa_salsaReady (N : Bytes 8) : (loadSalsa N s).salsaReady = true := rfl
@[simp] theorem loadSalsa_strm (N : Bytes 8) : (loadSalsa N s).strm = s.strm := rfl
@[simp] theorem loadSalsa_strmSel (N : Bytes 8) : (loadSalsa N s).strmSel = s.strmSel := rfl
@[simp] theorem loadSalsa_chain (N : Bytes 8) : (loadSalsa N s).chain = s.chain := rfl
@[simp] theorem loadSalsa_held (N : Bytes 8) : (loadSalsa N s).held = s.held := rfl
@[simp] theorem loadSalsa_heldValid (N : Bytes 8) : (loadSalsa N s).heldValid = s.heldValid := rfl
@[simp] theorem loadSalsa_rstN (N : Bytes 8) : (loadSalsa N s).rstN = s.rstN := rfl
@[simp] theorem loadSalsa_inputs (N : Bytes 8) : (loadSalsa N s).inputs = s.inputs := rfl
@[simp] theorem loadSalsa_bus (N : Bytes 8) : (loadSalsa N s).bus = s.bus := rfl
@[simp] theorem loadSalsa_rngDrawn (N : Bytes 8) : (loadSalsa N s).rngDrawn = s.rngDrawn := rfl
@[simp] theorem loadSalsa_resets (N : Bytes 8) : (loadSalsa N s).resets = s.resets := rfl

@[simp] theorem respond_key (b : BusResponse) : (respond b s).key = s.key := rfl
@[simp] theorem respond_nonce (b : BusResponse) : (respond b s).nonce = s.nonce := rfl
@[simp] theorem respond_iv (b : BusResponse) : (respond b s).iv = s.iv := rfl
@[simp] theorem respond_din (b : BusResponse) : (respond b s).din = s.din := rfl
@[simp] theorem respond_dout (b : BusResponse) : (respond b s).dout = s.dout := rfl
@[simp] theorem respond_err (b : BusResponse) : (respond b s).err = s.err := rfl
@[simp] theorem respond_outLen (b : BusResponse) : (respond b s).outLen = s.outLen := rfl
@[simp] theorem respond_aesRk (b : BusResponse) : (respond b s).aesRk = s.aesRk := rfl
@[simp] theorem respond_aesKeyed (b : BusResponse) : (respond b s).aesKeyed = s.aesKeyed := rfl
@[simp] theorem respond_tfK (b : BusResponse) : (respond b s).tfK = s.tfK := rfl
@[simp] theorem respond_tfS (b : BusResponse) : (respond b s).tfS = s.tfS := rfl
@[simp] theorem respond_tfKeyed (b : BusResponse) : (respond b s).tfKeyed = s.tfKeyed := rfl
@[simp] theorem respond_sx (b : BusResponse) : (respond b s).sx = s.sx := rfl
@[simp] theorem respond_salsaReady (b : BusResponse) : (respond b s).salsaReady = s.salsaReady := rfl
@[simp] theorem respond_strm (b : BusResponse) : (respond b s).strm = s.strm := rfl
@[simp] theorem respond_strmSel (b : BusResponse) : (respond b s).strmSel = s.strmSel := rfl
@[simp] theorem respond_chain (b : BusResponse) : (respond b s).chain = s.chain := rfl
@[simp] theorem respond_held (b : BusResponse) : (respond b s).held = s.held := rfl
@[simp] theorem respond_heldValid (b : BusResponse) : (respond b s).heldValid = s.heldValid := rfl
@[simp] theorem respond_rstN (b : BusResponse) : (respond b s).rstN = s.rstN := rfl
@[simp] theorem respond_inputs (b : BusResponse) : (respond b s).inputs = s.inputs := rfl
@[simp] theorem respond_bus (b : BusResponse) : (respond b s).bus = b := rfl
@[simp] theorem respond_rngDrawn (b : BusResponse) : (respond b s).rngDrawn = s.rngDrawn := rfl
@[simp] theorem respond_resets (b : BusResponse) : (respond b s).resets = s.resets := rfl

@[simp] theorem enterReset_key : (enterReset s).key = zeros 32 := rfl
@[simp] theorem enterReset_nonce : (enterReset s).nonce = zeros 8 := rfl
@[simp] theorem enterReset_iv : (enterReset s).iv = zeros 16 := rfl
@[simp] theorem enterReset_din : (enterReset s).din = zeros 64 := rfl
@[simp] theorem enterReset_dout : (enterReset s).dout = zeros 64 := rfl
@[simp] theorem enterReset_err : (enterReset s).err = .ok := rfl
@[simp] theorem enterReset_outLen : (enterReset s).outLen = 0 := rfl
@[simp] theorem enterReset_aesRk : (enterReset s).aesRk = Vector.replicate 15 (zeros 16) := rfl
@[simp] theorem enterReset_aesKeyed : (enterReset s).aesKeyed = false := rfl
@[simp] theorem enterReset_tfK : (enterReset s).tfK = zeroWords 40 := rfl
@[simp] theorem enterReset_tfS : (enterReset s).tfS = zeroWords 4 := rfl
@[simp] theorem enterReset_tfKeyed : (enterReset s).tfKeyed = false := rfl
@[simp] theorem enterReset_sx : (enterReset s).sx = zeroWords 16 := rfl
@[simp] theorem enterReset_salsaReady : (enterReset s).salsaReady = false := rfl
@[simp] theorem enterReset_strm : (enterReset s).strm = .idle := rfl
@[simp] theorem enterReset_strmSel : (enterReset s).strmSel = .aes := rfl
@[simp] theorem enterReset_chain : (enterReset s).chain = zeros 16 := rfl
@[simp] theorem enterReset_held : (enterReset s).held = zeros 16 := rfl
@[simp] theorem enterReset_heldValid : (enterReset s).heldValid = false := rfl
@[simp] theorem enterReset_rstN : (enterReset s).rstN = false := rfl
@[simp] theorem enterReset_inputs : (enterReset s).inputs = s.inputs := rfl
@[simp] theorem enterReset_bus : (enterReset s).bus =
    .inReset (Config.busInReset s.resets).1 (Config.busInReset s.resets).2 := rfl
@[simp] theorem enterReset_rngDrawn : (enterReset s).rngDrawn = s.rngDrawn := rfl
@[simp] theorem enterReset_resets : (enterReset s).resets = s.resets + 1 := rfl

section Raise

variable (op : BitVec 8) (e : ErrCode)

@[simp] theorem raiseError_key : (raiseError op e s).key = s.key := by
  unfold raiseError; split <;> rfl
@[simp] theorem raiseError_nonce : (raiseError op e s).nonce = s.nonce := by
  unfold raiseError; split <;> rfl
@[simp] theorem raiseError_iv : (raiseError op e s).iv = s.iv := by
  unfold raiseError; split <;> rfl
@[simp] theorem raiseError_din : (raiseError op e s).din = s.din := by
  unfold raiseError; split <;> rfl
@[simp] theorem raiseError_dout : (raiseError op e s).dout = zeros 64 := by
  unfold raiseError; split <;> rfl
@[simp] theorem raiseError_err : (raiseError op e s).err = e := by
  unfold raiseError; split <;> rfl
@[simp] theorem raiseError_outLen : (raiseError op e s).outLen = 0 := by
  unfold raiseError; split <;> rfl
@[simp] theorem raiseError_aesRk : (raiseError op e s).aesRk = s.aesRk := by
  unfold raiseError; split <;> rfl
@[simp] theorem raiseError_aesKeyed : (raiseError op e s).aesKeyed = s.aesKeyed := by
  unfold raiseError; split <;> rfl
@[simp] theorem raiseError_tfK : (raiseError op e s).tfK = s.tfK := by
  unfold raiseError; split <;> rfl
@[simp] theorem raiseError_tfS : (raiseError op e s).tfS = s.tfS := by
  unfold raiseError; split <;> rfl
@[simp] theorem raiseError_tfKeyed : (raiseError op e s).tfKeyed = s.tfKeyed := by
  unfold raiseError; split <;> rfl
@[simp] theorem raiseError_sx : (raiseError op e s).sx = s.sx := by
  unfold raiseError; split <;> rfl
@[simp] theorem raiseError_salsaReady : (raiseError op e s).salsaReady = s.salsaReady := by
  unfold raiseError; split <;> rfl
@[simp] theorem raiseError_rstN : (raiseError op e s).rstN = s.rstN := by
  unfold raiseError; split <;> rfl
@[simp] theorem raiseError_inputs : (raiseError op e s).inputs = s.inputs := by
  unfold raiseError; split <;> rfl
@[simp] theorem raiseError_bus : (raiseError op e s).bus = s.bus := by
  unfold raiseError; split <;> rfl
@[simp] theorem raiseError_rngDrawn : (raiseError op e s).rngDrawn = s.rngDrawn := by
  unfold raiseError; split <;> rfl
@[simp] theorem raiseError_resets : (raiseError op e s).resets = s.resets := by
  unfold raiseError; split <;> rfl

end Raise

end Sys2Proof.Machine
end

