-- ==== Sys2Proof/Laws/Ops.lean ====
section
/-! SUPPORT. One lemma for each shared operation that says once everything it can do. -/

namespace Sys2Proof.Machine

open Sys2Proof

theorem raiseError_of_cbc {op : BitVec 8} (h : isCbcOp op = true) (e : ErrCode) (s : State) :
    raiseError op e s = closeStream (recordError e s) := by
  simp [raiseError, h]

theorem raiseError_of_not_cbc {op : BitVec 8} (h : isCbcOp op = false) (e : ErrCode) (s : State) :
    raiseError op e s = recordError e s := by
  simp [raiseError, h]

theorem loadBlockKey_cases (c : CipherSel) (len : Nat) (load : State → State) (s : State) :
    (s.rekeysStream c = true ∧ loadBlockKey c len load s = raiseError 0x01 .sequenceError s) ∨
    (s.rekeysStream c = false ∧ len ≠ 32 ∧ loadBlockKey c len load s = raiseError 0x01 .configurationError s) ∨
    (s.rekeysStream c = false ∧ len = 32 ∧ loadBlockKey c len load s = complete [] (load s)) := by
  cases h : s.rekeysStream c <;> by_cases hl : len = 32 <;> simp [loadBlockKey, keyLenOk, h, hl]

theorem runBlock_cases (op : BitVec 8) (c : CipherSel) (f : Block → Block) (s : State) :
    (s.keyed c = false ∧ runBlock op c f s = raiseError op .sequenceError s) ∨
    (s.keyed c = true ∧ runBlock op c f s = complete (f (slice s.din 0 16)).toList s) := by
  cases h : s.keyed c <;> simp [runBlock, h]

theorem runEcb_cases (op : BitVec 8) (c : CipherSel) (f : Block → Block) (len : Nat) (s : State) :
    (s.keyed c = false ∧ runEcb op c f len s = raiseError op .sequenceError s) ∨
    (s.keyed c = true ∧ ecbLenOk len = false ∧ runEcb op c f len s = raiseError op .invalidLengthError s) ∨
    (s.keyed c = true ∧ ecbLenOk len = true ∧ runEcb op c f len s = complete (ecbBuffer f (dinBuffer s len)) s) := by
  cases h : s.keyed c <;> cases hl : ecbLenOk len <;> simp [runEcb, h, hl]

theorem startEnc_cases (c : CipherSel) (gen : Bool) (s : State) :
    ((s.strm ≠ .idle ∨ s.keyed c = false) ∧ startEnc c gen s = raiseError 0x08 .sequenceError s) ∨
    (s.strm = .idle ∧ s.keyed c = true ∧ gen = false ∧
      startEnc c gen s = complete s.iv.toList { s with strm := .enc, strmSel := c, chain := s.iv }) ∨
    (s.strm = .idle ∧ s.keyed c = true ∧ gen = true ∧
      startEnc c gen s = complete (rngBytes 16 s).toList
        { afterDraw 16 s with iv := rngBytes 16 s, strm := .enc, strmSel := c, chain := rngBytes 16 s }) := by
  by_cases hs : s.strm = .idle <;> cases hk : s.keyed c <;> cases gen <;> simp [startEnc, hs, hk]

theorem startDec_cases (c : CipherSel) (len : Nat) (s : State) :
    ((s.strm ≠ .idle ∨ s.keyed c = false) ∧ startDec c len s = raiseError 0x0C .sequenceError s) ∨
    (s.strm = .idle ∧ s.keyed c = true ∧ 16 < len ∧ startDec c len s = raiseError 0x0C .invalidLengthError s) ∨
    (s.strm = .idle ∧ s.keyed c = true ∧ len < 16 ∧ startDec c len s = raiseError 0x0C .formatError s) ∨
    (s.strm = .idle ∧ s.keyed c = true ∧ len = 16 ∧
      startDec c len s = complete []
        { s with strm := .dec, strmSel := c, chain := slice s.din 0 16, held := zeros 16, heldValid := false }) := by
  by_cases hs : s.strm = .idle <;> cases hk : s.keyed c <;> simp [startDec, hs, hk]
  rcases Nat.lt_trichotomy len 16 with h | h | h
  · simp [h, Nat.not_lt.2 (Nat.le_of_lt h)]
  · simp [h]
  · simp [h]

theorem execKeyLoadSalsa_cases (len nlen : Nat) (s : State) :
    ((len ≠ 32 ∨ nlen ≠ 8) ∧ execKeyLoadSalsa len nlen s = .next (raiseError 0x01 .configurationError s)) ∨
    (len = 32 ∧ nlen = 8 ∧ execKeyLoadSalsa len nlen s = .next (complete [] (loadSalsa s.nonce s))) := by
  by_cases hl : len = 32 <;> by_cases hn : nlen = 8 <;> simp [execKeyLoadSalsa, keyLenOk, nonceLenOk, hl, hn]

theorem execKeyLoadSalsaGen_cases (len : Nat) (s : State) :
    (len ≠ 32 ∧ execKeyLoadSalsaGen len s = .next (raiseError 0x01 .configurationError s)) ∨
    (len = 32 ∧ execKeyLoadSalsaGen len s =
      .next (complete [] (loadSalsa (rngBytes 8 s) { afterDraw 8 s with nonce := rngBytes 8 s }))) := by
  by_cases hl : len = 32 <;> simp [execKeyLoadSalsaGen, keyLenOk, hl]

theorem execSalsaProcess_cases (s : State) :
    (s.salsaReady = false ∧ execSalsaProcess s = .next (raiseError 0x04 .sequenceError s)) ∨
    (s.salsaReady = true ∧ execSalsaProcess s =
      .next (complete (xorBytes (slice s.din 0 64) (salsaBlock s.sx)).toList { s with sx := counterInc s.sx })) := by
  cases h : s.salsaReady <;> simp [execSalsaProcess, salsaUnit, h]

theorem execCbcEncUpdate_cases (len : Nat) (s : State) :
    (s.strm ≠ .enc ∧ execCbcEncUpdate len s = .next (raiseError 0x09 .sequenceError s)) ∨
    (s.strm = .enc ∧ len ≠ 16 ∧ execCbcEncUpdate len s = .next (raiseError 0x09 .invalidLengthError s)) ∨
    (s.strm = .enc ∧ len = 16 ∧ execCbcEncUpdate len s =
      .next (complete (blockEncrypt s s.strmSel (xorBytes (slice s.din 0 16) s.chain)).toList
        { s with chain := blockEncrypt s s.strmSel (xorBytes (slice s.din 0 16) s.chain) })) := by
  by_cases hs : s.strm = .enc <;> by_cases hl : len = 16 <;> simp [execCbcEncUpdate, hs, hl]

theorem execCbcEncFinal_cases (len : Nat) (s : State) :
    (s.strm ≠ .enc ∧ execCbcEncFinal len s = .next (raiseError 0x0A .sequenceError s)) ∨
    (s.strm = .enc ∧ 15 < len ∧ execCbcEncFinal len s = .next (raiseError 0x0A .invalidLengthError s)) ∨
    (s.strm = .enc ∧ len ≤ 15 ∧ execCbcEncFinal len s =
      .next (complete (blockEncrypt s s.strmSel (xorBytes (pad (dinBuffer s len)) s.chain)).toList
        { s with strm := .idle, strmSel := .aes, chain := zeros 16 })) := by
  by_cases hs : s.strm = .enc <;> by_cases hl : 15 < len
  · simp [execCbcEncFinal, hs, hl]
  · simp [execCbcEncFinal, hs, hl, Nat.le_of_not_lt hl]
  · simp [execCbcEncFinal, hs]
  · simp [execCbcEncFinal, hs]

theorem execCbcDecUpdate_cases (len : Nat) (s : State) :
    (s.strm ≠ .dec ∧ execCbcDecUpdate len s = .next (raiseError 0x0D .sequenceError s)) ∨
    (s.strm = .dec ∧ len ≠ 16 ∧ execCbcDecUpdate len s = .next (raiseError 0x0D .invalidLengthError s)) ∨
    (s.strm = .dec ∧ len = 16 ∧ execCbcDecUpdate len s =
      .next (complete (if s.heldValid then s.held.toList else [])
        { s with
          chain := slice s.din 0 16
          held := xorBytes (blockDecrypt s s.strmSel (slice s.din 0 16)) s.chain
          heldValid := true })) := by
  by_cases hs : s.strm = .dec <;> by_cases hl : len = 16 <;> simp [execCbcDecUpdate, hs, hl]

theorem execCbcDecFinal_cases (len : Nat) (s : State) :
    (s.strm ≠ .dec ∧ execCbcDecFinal len s = .next (raiseError 0x0E .sequenceError s)) ∨
    (s.strm = .dec ∧ 16 ≤ len ∧ execCbcDecFinal len s = .next (raiseError 0x0E .invalidLengthError s)) ∨
    (s.strm = .dec ∧ len < 16 ∧ (len ≠ 0 ∨ s.heldValid = false ∨ padOk s.held = false) ∧
      execCbcDecFinal len s = .next (raiseError 0x0E .formatError s)) ∨
    (s.strm = .dec ∧ len = 0 ∧ s.heldValid = true ∧ padOk s.held = true ∧
      execCbcDecFinal len s = .next (complete (unpad s.held) (closeStream s))) := by
  by_cases hs : s.strm = .dec
  · by_cases hl : 16 ≤ len
    · simp [execCbcDecFinal, hs, hl]
    · by_cases h0 : len = 0 <;> cases hv : s.heldValid <;> cases hp : padOk s.held <;>
        simp [execCbcDecFinal, hs, hl, h0, hv, hp, Nat.lt_of_not_le hl]
  · simp [execCbcDecFinal, hs]

end Sys2Proof.Machine
end

