-- ==== Sys2Proof/Laws/PerInstr.lean ====
section
/-! SUPPORT. The family EncodedRow: the encoding of every command matches the row of the opcode table that bears its
mnemonic (30_encoding.md R75, R78), one lemma per command. -/

namespace Sys2Proof.Laws.EncodedRow

open Sys2Proof

-- One theorem at a time: the kernel evaluations below would each hold a thread while they wait.
set_option Elab.async false

/-- The command's word matches exactly the row that bears its mnemonic. -/
def Statement (i : Instr) : Prop :=
  (opcodeRows.filter fun r => r.matches (encode i)).map Row.mnemonic = [i.mnemonic]

/-- A word with a free LEN matches a list of rows as the word with some 7-bit LEN does. -/
theorem of_len {op : BitVec 8} {sel : BitVec 2} {gen : BitVec 1} {name : String}
    (h : ∀ l : BitVec 7,
      (opcodeRows.filter fun r =>
        r.matches ({ op := op, sel := sel, gen := gen, rsvA := 0, len := l, rsvB := 0, nlen := 0, rsvC := 0 } : Fields).word).map
          Row.mnemonic = [name]) (len : Nat) :
    (opcodeRows.filter fun r => r.matches (commandWord op sel gen len 0)).map Row.mnemonic = [name] :=
  h (BitVec.ofNat 7 len)

theorem keyLoadAes (len : Nat) : Statement (.keyLoadAes len) :=
  of_len (name := "KEY_LOAD.AES") (by decide +kernel) len

theorem keyLoadTf (len : Nat) : Statement (.keyLoadTf len) :=
  of_len (name := "KEY_LOAD.TF") (by decide +kernel) len

/-- The word of KEY_LOAD.SALSA under a mask that keeps no bit of LEN or NLEN. -/
theorem keyLoadSalsa_masked (l n : BitVec 7) (mask : Word) (h : mask &&& 0x7F7F0000#32 = 0#32) :
    ({ op := 1, sel := 2, gen := 0, rsvA := 0, len := l, rsvB := 0, nlen := n, rsvC := 0 } : Fields).word &&& mask =
      0x201#32 &&& mask := by
  apply BitVec.eq_of_getLsbD_eq
  intro i hi
  have hb := congrArg (fun w : Word => w.getLsbD i) h
  simp only [Fields.word, BitVec.getLsbD_and, BitVec.getLsbD_append] at hb ⊢
  interval_cases i <;> revert hb <;> simp +contextual

/-- A row that does not agree with KEY_LOAD.SALSA's low eleven bits does not match its words. -/
theorem not_matches_keyLoadSalsa (l n : BitVec 7) (r : Row)
    (h : 0x201#32 &&& 0x7FF#32 &&& r.mask ≠ r.value &&& 0x7FF#32) :
    r.matches ({ op := 1, sel := 2, gen := 0, rsvA := 0, len := l, rsvB := 0, nlen := n, rsvC := 0 } : Fields).word = false := by
  by_contra hm
  simp only [Row.matches, Bool.not_eq_false, beq_iff_eq] at hm
  apply h
  rw [← keyLoadSalsa_masked l n 0x7FF#32 (by decide), ← hm, BitVec.and_assoc, BitVec.and_assoc, BitVec.and_comm r.mask]

theorem keyLoadSalsa (len nlen : Nat) : Statement (.keyLoadSalsa len nlen) := by
  have h : ∀ r ∈ opcodeRows, r.matches (encode (.keyLoadSalsa len nlen)) = decide (r.mnemonic = "KEY_LOAD.SALSA") := by
    intro r hr
    by_cases hn : r = ⟨"KEY_LOAD.SALSA", 0x00000201, 0x8080FFFF⟩
    · subst hn
      simp only [Row.matches, encode, commandWord]
      rw [keyLoadSalsa_masked _ _ _ (by decide)]
      decide
    · simp only [encode, commandWord]
      rw [not_matches_keyLoadSalsa _ _ r]
      · revert r; decide
      · revert r; decide
  unfold Statement
  rw [List.filter_congr h, Instr.mnemonic]
  decide

theorem keyLoadSalsaGen (len : Nat) : Statement (.keyLoadSalsaGen len) :=
  of_len (name := "KEY_LOAD.SALSA.GEN") (by decide +kernel) len

theorem blockEncAes : Statement .blockEncAes := by unfold Statement; decide

theorem blockEncTf : Statement .blockEncTf := by unfold Statement; decide

theorem blockDecAes : Statement .blockDecAes := by unfold Statement; decide

theorem blockDecTf : Statement .blockDecTf := by unfold Statement; decide

theorem salsaProcess : Statement .salsaProcess := by unfold Statement; decide

theorem ecbEncAes (len : Nat) : Statement (.ecbEncAes len) :=
  of_len (name := "ECB_ENC.AES") (by decide +kernel) len

theorem ecbEncTf (len : Nat) : Statement (.ecbEncTf len) :=
  of_len (name := "ECB_ENC.TF") (by decide +kernel) len

theorem ecbDecAes (len : Nat) : Statement (.ecbDecAes len) :=
  of_len (name := "ECB_DEC.AES") (by decide +kernel) len

theorem ecbDecTf (len : Nat) : Statement (.ecbDecTf len) :=
  of_len (name := "ECB_DEC.TF") (by decide +kernel) len

theorem cbcEncStartAes (gen : Bool) : Statement (.cbcEncStartAes gen) := by
  cases gen <;> (unfold Statement; decide)

theorem cbcEncStartTf (gen : Bool) : Statement (.cbcEncStartTf gen) := by
  cases gen <;> (unfold Statement; decide)

theorem cbcEncUpdate (len : Nat) : Statement (.cbcEncUpdate len) :=
  of_len (name := "CBC_ENC_UPDATE") (by decide +kernel) len

theorem cbcEncFinal (len : Nat) : Statement (.cbcEncFinal len) :=
  of_len (name := "CBC_ENC_FINAL") (by decide +kernel) len

theorem cbcDecStartAes (len : Nat) : Statement (.cbcDecStartAes len) :=
  of_len (name := "CBC_DEC_START.AES") (by decide +kernel) len

theorem cbcDecStartTf (len : Nat) : Statement (.cbcDecStartTf len) :=
  of_len (name := "CBC_DEC_START.TF") (by decide +kernel) len

theorem cbcDecUpdate (len : Nat) : Statement (.cbcDecUpdate len) :=
  of_len (name := "CBC_DEC_UPDATE") (by decide +kernel) len

theorem cbcDecFinal (len : Nat) : Statement (.cbcDecFinal len) :=
  of_len (name := "CBC_DEC_FINAL") (by decide +kernel) len

theorem cbcAbort : Statement .cbcAbort := by unfold Statement; decide

theorem zeroize : Statement .zeroize := by unfold Statement; decide

end Sys2Proof.Laws.EncodedRow
end

