-- ==== Sys2Proof/Laws/Step.lean ====
section
/-! SUPPORT. What one command and one step can answer: every command ends by `complete` or by `raiseError`. -/

namespace Sys2Proof.Machine

open Sys2Proof

@[simp] theorem length_ecbBlocks (f : Block → Block) (n : Nat) (buf : List Byte) :
    (ecbBlocks f n buf).length = 16 * n := by
  induction n generalizing buf with
  | zero => rfl
  | succ n ih => simp [ecbBlocks, ih]; omega

@[simp] theorem length_dinBuffer (s : State) (len : Nat) : (dinBuffer s len).length = min len 64 := by
  simp [dinBuffer]

theorem length_ecbBuffer (f : Block → Block) (buf : List Byte) (h : buf.length % 16 = 0) :
    (ecbBuffer f buf).length = buf.length := by
  simp [ecbBuffer]; omega

@[simp] theorem length_unpad (p : Block) : (unpad p).length = min (16 - padLen p) 16 := by
  simp [unpad]

/-- The opcode of a command (30_encoding.md R74). -/
def opOf (i : Instr) : BitVec 8 := (fields (encode i)).op

theorem opOf_eq (op : BitVec 8) (sel : BitVec 2) (gen : BitVec 1) (len nlen : Nat) :
    (fields (commandWord op sel gen len nlen)).op = op := by
  rw [fields_commandWord]

/-- A state is reached by an error raised under this opcode, or by a completion with at most 64 bytes of output. -/
def Ended (op : BitVec 8) (s t : State) : Prop :=
  (∃ e, e ≠ .ok ∧ t = raiseError op e s) ∨ (∃ out u, out.length ≤ 64 ∧ t = complete out u)

theorem Ended.raise {op : BitVec 8} {e : ErrCode} (s : State) (h : e ≠ .ok) : Ended op s (raiseError op e s) :=
  .inl ⟨e, h, rfl⟩

theorem Ended.completed {op : BitVec 8} {s : State} {out : List Byte} (u : State) (h : out.length ≤ 64) :
    Ended op s (complete out u) :=
  .inr ⟨out, u, h, rfl⟩

theorem loadBlockKey_ended (c : CipherSel) (len : Nat) (load : State → State) (s : State) :
    Ended 0x01 s (loadBlockKey c len load s) := by
  rcases loadBlockKey_cases c len load s with ⟨_, h⟩ | ⟨_, _, h⟩ | ⟨_, _, h⟩ <;> rw [h]
  · exact .raise s (by decide)
  · exact .raise s (by decide)
  · exact .completed _ (by simp)

theorem runBlock_ended (op : BitVec 8) (c : CipherSel) (f : Block → Block) (s : State) :
    Ended op s (runBlock op c f s) := by
  rcases runBlock_cases op c f s with ⟨_, h⟩ | ⟨_, h⟩ <;> rw [h]
  · exact .raise s (by decide)
  · exact .completed _ (by simp)

theorem runEcb_ended (op : BitVec 8) (c : CipherSel) (f : Block → Block) (len : Nat) (s : State) :
    Ended op s (runEcb op c f len s) := by
  rcases runEcb_cases op c f len s with ⟨_, h⟩ | ⟨_, _, h⟩ | ⟨_, hl, h⟩ <;> rw [h]
  · exact .raise s (by decide)
  · exact .raise s (by decide)
  · simp only [ecbLenOk, Bool.and_eq_true, decide_eq_true_eq] at hl
    refine .completed _ ?_
    rw [length_ecbBuffer _ _ (by rw [length_dinBuffer]; omega), length_dinBuffer]
    omega

theorem startEnc_ended (c : CipherSel) (gen : Bool) (s : State) : Ended 0x08 s (startEnc c gen s) := by
  rcases startEnc_cases c gen s with ⟨_, h⟩ | ⟨_, _, _, h⟩ | ⟨_, _, _, h⟩ <;> rw [h]
  · exact .raise s (by decide)
  · exact .completed _ (by simp)
  · exact .completed _ (by simp)

theorem startDec_ended (c : CipherSel) (len : Nat) (s : State) : Ended 0x0C s (startDec c len s) := by
  rcases startDec_cases c len s with ⟨_, h⟩ | ⟨_, _, _, h⟩ | ⟨_, _, _, h⟩ | ⟨_, _, _, h⟩ <;> rw [h]
  · exact .raise s (by decide)
  · exact .raise s (by decide)
  · exact .raise s (by decide)
  · exact .completed _ (by simp)

/-- Every command ends in exactly one of two ways (40_command.md R93, R94). -/
theorem exec_ended (i : Instr) (s : State) : ∃ t, exec i s = .next t ∧ Ended (opOf i) s t := by
  cases i with
  | keyLoadAes len => exact ⟨_, rfl, by rw [opOf, encode, opOf_eq]; exact loadBlockKey_ended _ _ _ _⟩
  | keyLoadTf len => exact ⟨_, rfl, by rw [opOf, encode, opOf_eq]; exact loadBlockKey_ended _ _ _ _⟩
  | keyLoadSalsa len nlen =>
    rw [opOf, encode, opOf_eq, exec]
    rcases execKeyLoadSalsa_cases len nlen s with ⟨_, h⟩ | ⟨_, _, h⟩ <;> refine ⟨_, h, ?_⟩
    · exact .raise s (by decide)
    · exact .completed _ (by simp)
  | keyLoadSalsaGen len =>
    rw [opOf, encode, opOf_eq, exec]
    rcases execKeyLoadSalsaGen_cases len s with ⟨_, h⟩ | ⟨_, h⟩ <;> refine ⟨_, h, ?_⟩
    · exact .raise s (by decide)
    · exact .completed _ (by simp)
  | blockEncAes => exact ⟨_, rfl, by rw [opOf, encode, opOf_eq]; exact runBlock_ended _ _ _ _⟩
  | blockEncTf => exact ⟨_, rfl, by rw [opOf, encode, opOf_eq]; exact runBlock_ended _ _ _ _⟩
  | blockDecAes => exact ⟨_, rfl, by rw [opOf, encode, opOf_eq]; exact runBlock_ended _ _ _ _⟩
  | blockDecTf => exact ⟨_, rfl, by rw [opOf, encode, opOf_eq]; exact runBlock_ended _ _ _ _⟩
  | salsaProcess =>
    rw [opOf, encode, opOf_eq, exec]
    rcases execSalsaProcess_cases s with ⟨_, h⟩ | ⟨_, h⟩ <;> refine ⟨_, h, ?_⟩
    · exact .raise s (by decide)
    · exact .completed _ (by simp)
  | ecbEncAes len => exact ⟨_, rfl, by rw [opOf, encode, opOf_eq]; exact runEcb_ended _ _ _ _ _⟩
  | ecbEncTf len => exact ⟨_, rfl, by rw [opOf, encode, opOf_eq]; exact runEcb_ended _ _ _ _ _⟩
  | ecbDecAes len => exact ⟨_, rfl, by rw [opOf, encode, opOf_eq]; exact runEcb_ended _ _ _ _ _⟩
  | ecbDecTf len => exact ⟨_, rfl, by rw [opOf, encode, opOf_eq]; exact runEcb_ended _ _ _ _ _⟩
  | cbcEncStartAes gen => exact ⟨_, rfl, by rw [opOf, encode, opOf_eq]; exact startEnc_ended _ _ _⟩
  | cbcEncStartTf gen => exact ⟨_, rfl, by rw [opOf, encode, opOf_eq]; exact startEnc_ended _ _ _⟩
  | cbcEncUpdate len =>
    rw [opOf, encode, opOf_eq, exec]
    rcases execCbcEncUpdate_cases len s with ⟨_, h⟩ | ⟨_, _, h⟩ | ⟨_, _, h⟩ <;> refine ⟨_, h, ?_⟩
    · exact .raise s (by decide)
    · exact .raise s (by decide)
    · exact .completed _ (by simp)
  | cbcEncFinal len =>
    rw [opOf, encode, opOf_eq, exec]
    rcases execCbcEncFinal_cases len s with ⟨_, h⟩ | ⟨_, _, h⟩ | ⟨_, _, h⟩ <;> refine ⟨_, h, ?_⟩
    · exact .raise s (by decide)
    · exact .raise s (by decide)
    · exact .completed _ (by simp)
  | cbcDecStartAes len => exact ⟨_, rfl, by rw [opOf, encode, opOf_eq]; exact startDec_ended _ _ _⟩
  | cbcDecStartTf len => exact ⟨_, rfl, by rw [opOf, encode, opOf_eq]; exact startDec_ended _ _ _⟩
  | cbcDecUpdate len =>
    rw [opOf, encode, opOf_eq, exec]
    rcases execCbcDecUpdate_cases len s with ⟨_, h⟩ | ⟨_, _, h⟩ | ⟨_, _, h⟩ <;> refine ⟨_, h, ?_⟩
    · exact .raise s (by decide)
    · exact .raise s (by decide)
    · exact .completed _ (by cases s.heldValid <;> simp)
  | cbcDecFinal len =>
    rw [opOf, encode, opOf_eq, exec]
    rcases execCbcDecFinal_cases len s with ⟨_, h⟩ | ⟨_, _, h⟩ | ⟨_, _, _, h⟩ | ⟨_, _, _, _, h⟩ <;> refine ⟨_, h, ?_⟩
    · exact .raise s (by decide)
    · exact .raise s (by decide)
    · exact .raise s (by decide)
    · exact .completed _ (by rw [length_unpad]; omega)
  | cbcAbort => exact ⟨_, rfl, .completed _ (by simp)⟩
  | zeroize => exact ⟨_, rfl, .completed _ (by simp)⟩

/-- Accesses alone hold no edge. -/
theorem nextEdge_accesses (as : List Access) : nextEdge (as.map .access) = none := by
  induction as with
  | nil => rfl
  | cons a as ih => simp [nextEdge, ih]

/-- An edge is taken past the accesses that wait before it, and they keep their places. -/
theorem nextEdge_past {i : Input} (hi : ∀ a, i ≠ .access a) (as : List Access) (rest : List Input) :
    nextEdge (as.map .access ++ i :: rest) = some (i, as.map .access ++ rest) := by
  induction as with
  | nil => cases i <;> first | rfl | exact absurd rfl (hi _)
  | cons a as ih => simp [nextEdge, ih]

/-- What `nextEdge` takes is an edge. -/
theorem nextEdge_ne_access {l rest : List Input} {i : Input} (h : nextEdge l = some (i, rest)) (a : Access) :
    i ≠ .access a := by
  induction l generalizing rest with
  | nil => simp [nextEdge] at h
  | cons j l ih =>
    cases j with
    | access b =>
      simp only [nextEdge] at h
      split at h
      · next hl => cases h; exact ih hl
      · cases h
    | resetLow => cases h; nofun
    | resetDuring b => cases h; nofun
    | resetHigh => cases h; nofun

theorem step_of_nextInput {s : State} {i : Input} {rest : List Input} (h : nextInput s = some (i, rest)) :
    step s = serveInput i { s with inputs := rest } := by
  simp [step, h]

theorem step_of_no_input {s : State} (h : s.inputs = []) : step s = .next s := by
  cases hr : s.rstN <;> simp [step, nextInput, nextEdge, hr, h]

/-- While `rst_n` is high the oldest input is served. -/
theorem step_of_input {s : State} {i : Input} {rest : List Input} (hr : s.rstN = true) (h : s.inputs = i :: rest) :
    step s = serveInput i { s with inputs := rest } := by
  simp [step, nextInput, hr, h]

/-- While `rst_n` is low and no edge is among the inputs, the accesses wait. -/
theorem step_of_accesses_in_reset {s : State} {as : List Access} (hr : s.rstN = false)
    (h : s.inputs = as.map .access) : step s = .next s := by
  simp [step, nextInput, hr, h, nextEdge_accesses]

/-- While `rst_n` is low the first edge is taken, and the accesses before it wait. -/
theorem step_of_edge_in_reset {s : State} {i : Input} {as : List Access} {rest : List Input} (hr : s.rstN = false)
    (hi : ∀ a, i ≠ .access a) (h : s.inputs = as.map .access ++ i :: rest) :
    step s = serveInput i { s with inputs := as.map .access ++ rest } := by
  simp [step, nextInput, hr, h, nextEdge_past hi]

/-- A 32-bit write to an aligned offset (20_memory.md R54). -/
theorem serveAccess_write {s : State} {off : BitVec 12} (v : Word) (ha : off.toNat % 4 = 0) :
    serveAccess (.write off 4 v) s = respondTo .writeOkay (writeReg v s (regAt off)) := by
  simp [serveAccess, accessOk, ha]

/-- A 32-bit read of an aligned offset (20_memory.md R54). -/
theorem serveAccess_read {s : State} {off : BitVec 12} (ha : off.toNat % 4 = 0) :
    serveAccess (.read off 4) s = .next (respond (.readOkay (readReg s (regAt off))) s) := by
  simp [serveAccess, accessOk, ha]

end Sys2Proof.Machine
end

