-- ==== Sys2Proof/Tests/Slice0.lean ====
section
/-! SUPPORT. The model's own tests: ill-formed commands, words written out from 30_encoding.md R78, the vectors of
95_test_vectors.md, and for every statement with hypotheses a state and operands that meet them. -/

namespace Sys2Proof.Tests

open Sys2Proof Sys2Proof.Machine Sys2Proof.Spec

-- One theorem at a time: the many small kernel evaluations below would each hold a thread while they wait.
set_option Elab.async false

/-! ## Helpers -/

/-- The n bytes of a number, the most significant first: the byte strings of 95_test_vectors.md. -/
def hex (n x : Nat) : Bytes n := Vector.ofFn fun i => BitVec.ofNat 8 (x / 256 ^ (n - 1 - i.val))

/-- A decidable form of "this command answers a next state of which p holds". -/
def ends (i : Instr) (s : State) (p : State → Bool) : Bool :=
  match exec i s with
  | .next t => p t
  | .fault _ => false
  | .refused _ => false

/-- The same of a step. -/
def steps (s : State) (p : State → Bool) : Bool :=
  match step s with
  | .next t => p t
  | .fault _ => false
  | .refused _ => false

/-- The state a command answers. -/
def after (i : Instr) (s : State) : State :=
  match exec i s with
  | .next t => t
  | .fault _ => s
  | .refused _ => s

/-- The key K of 95_test_vectors.md. -/
def keyK : Bytes 32 := hex 32 0xbbdc2ed1422d201e7cf7d79a224a3a99487e4f257c5947ec27be5043941800ee

/-- The round keys of K (L2.2). -/
def rkK : Vector Block 15 :=
  #v[hex 16 0xbbdc2ed1422d201e7cf7d79a224a3a99, hex 16 0x487e4f257c5947ec27be5043941800ee,
    hex 16 0x17bf06f3559226ed2965f1770b2fcbee, hex 16 0x636b500d1f3217e1388c47a2ac94474c,
    hex 16 0x371f2f62628d098f4be8f8f840c73316, hex 16 0x6aad934a759f84ab4d13c309e1878445,
    hex 16 0x2440419a46cd48150d25b0ed4de283fb, hex 16 0x89357f45fcaafbeeb1b938e7503ebca2,
    hex 16 0x9e257bc9d8e833dcd5cd8331982f00ca, hex 16 0xcf201c31338ae7df8233df38d20d639a,
    hex 16 0x59dec37c8136f0a054fb7391ccd4735b, hex 16 0x84689308b7e274d735d1abefe7dcc875,
    hex 16 0xff365ee87e00ae482afbddd9e62fae82, hex 16 0x0a7d771bbd9f03cc884ea8236f926056,
    hex 16 0xf0e6ef408ee64108a41d9cd142323253]

/-- The Twofish subkeys of K (L2.4). -/
def subkeysK : Words 40 :=
  #v[0xb9544c92, 0x425488ca, 0x696443e6, 0x109e9a2a, 0x3b9b7a29, 0xe49f9c3a, 0x8110f0c7, 0x59dcb79a,
    0x966b309e, 0x2e6c67ff, 0xa92fc10b, 0x4ccfca06, 0xd4fca1ea, 0xa541d7b5, 0x5189cc3e, 0x13e53693,
    0xff98a727, 0x17bba1cd, 0xa46baff6, 0x933a1742, 0x6b1bee4e, 0x6eb0d03f, 0xfbefa93d, 0xf998f76a,
    0xee6fd611, 0x4bbed794, 0xcdd433a7, 0xad55de4b, 0x6227528d, 0x09dc9e62, 0xb50eb443, 0x36594ffb,
    0x7b8f9c80, 0xb2d6b631, 0xecc08cf6, 0xbffd8b03, 0xc9f30dc4, 0x0c8c6a24, 0x0ec0d95f, 0x3a9a5004]

/-- The S words of K (L2.4). -/
def swordsK : Words 4 := #v[0x640d944a, 0x1147c342, 0x2573c8ea, 0x2a6fecd7]

/-- The Salsa20 state of K and the nonce e8 30 09 4b 97 20 5d 2a (L2.6). -/
def salsaK : Words 16 :=
  #v[0x61707865, 0xd12edcbb, 0x1e202d42, 0x9ad7f77c, 0x993a4a22, 0x3320646e, 0x4b0930e8, 0x2a5d2097,
    0, 0, 0x79622d32, 0x254f7e48, 0xec47597c, 0x4350be27, 0xee001894, 0x6b206574]

/-- After reset, with K in KEY. -/
def keyState : State := { State.reset with key := keyK, nonce := hex 8 0xe830094b97205d2a }

/-- K loaded for AES. -/
def aesState : State := { keyState with aesRk := rkK, aesKeyed := true }

/-- K loaded for Twofish. -/
def tfState : State := { keyState with tfK := subkeysK, tfS := swordsK, tfKeyed := true }

/-- K and the nonce loaded for Salsa20. -/
def salsaState : State := { keyState with sx := salsaK, salsaReady := true }

/-- 00 01 .. 0f, the IV of L2.8 and L2.9. -/
def iv0f : Block := hex 16 0x000102030405060708090a0b0c0d0e0f

/-- An AES encryption stream open, its IV just taken (L2.8). -/
def encState : State := { aesState with iv := iv0f, strm := .enc, chain := iv0f }

/-- An AES decryption stream open, its IV just taken (L2.9). -/
def decState : State := { aesState with strm := .dec, chain := iv0f }

/-- A decryption stream that holds this block back. -/
def heldState (p : Block) : State := { decState with held := p, heldValid := true }

/-- Bytes in DIN from byte 0. -/
def withDin (b : List Byte) (s : State) : State := { s with din := fillTo 64 b }

/-- The host's next access, `rst_n` high. -/
def next (a : Access) (s : State) : State := { s with rstN := true, inputs := [.access a] }

/-! ## Well-formedness: an operand that does not fit its 7-bit field is refused (R70) -/

theorem test_illFormed_keyLoad :
    (Instr.keyLoadAes 128).wellFormed = false ∧ (Instr.keyLoadTf 128).wellFormed = false ∧
    (Instr.keyLoadSalsa 128 8).wellFormed = false ∧ (Instr.keyLoadSalsa 32 128).wellFormed = false ∧
    (Instr.keyLoadSalsaGen 128).wellFormed = false := by decide

theorem test_illFormed_ecb :
    (Instr.ecbEncAes 128).wellFormed = false ∧ (Instr.ecbEncTf 128).wellFormed = false ∧
    (Instr.ecbDecAes 128).wellFormed = false ∧ (Instr.ecbDecTf 128).wellFormed = false := by decide

theorem test_illFormed_cbc :
    (Instr.cbcEncUpdate 128).wellFormed = false ∧ (Instr.cbcEncFinal 128).wellFormed = false ∧
    (Instr.cbcDecStartAes 128).wellFormed = false ∧ (Instr.cbcDecStartTf 128).wellFormed = false ∧
    (Instr.cbcDecUpdate 128).wellFormed = false ∧ (Instr.cbcDecFinal 128).wellFormed = false := by decide

/-! ## Decoding: one word of each row, bit 31 first (R78) -/

theorem test_decode_keyLoad :
    decode 0b0_0000000_0_0100000_00000_0_00_00000001 = .ok (.keyLoadAes 32) ∧
    decode 0b0_0000000_0_1010101_00000_0_01_00000001 = .ok (.keyLoadTf 85) ∧
    decode 0b0_0001000_0_0100000_00000_0_10_00000001 = .ok (.keyLoadSalsa 32 8) ∧
    decode 0b0_0000000_0_0100000_00000_1_10_00000001 = .ok (.keyLoadSalsaGen 32) := by decide

theorem test_decode_block :
    decode 0b0_0000000_0_0000000_00000_0_00_00000010 = .ok .blockEncAes ∧
    decode 0b0_0000000_0_0000000_00000_0_01_00000010 = .ok .blockEncTf ∧
    decode 0b0_0000000_0_0000000_00000_0_00_00000011 = .ok .blockDecAes ∧
    decode 0b0_0000000_0_0000000_00000_0_01_00000011 = .ok .blockDecTf ∧
    decode 0b0_0000000_0_0000000_00000_0_10_00000100 = .ok .salsaProcess := by decide

theorem test_decode_ecb :
    decode 0b0_0000000_0_0110000_00000_0_00_00000101 = .ok (.ecbEncAes 48) ∧
    decode 0b0_0000000_0_0110000_00000_0_01_00000101 = .ok (.ecbEncTf 48) ∧
    decode 0b0_0000000_0_1000000_00000_0_00_00000110 = .ok (.ecbDecAes 64) ∧
    decode 0b0_0000000_0_0000001_00000_0_01_00000110 = .ok (.ecbDecTf 1) := by decide

theorem test_decode_cbcEnc :
    decode 0b0_0000000_0_0000000_00000_1_00_00001000 = .ok (.cbcEncStartAes true) ∧
    decode 0b0_0000000_0_0000000_00000_0_01_00001000 = .ok (.cbcEncStartTf false) ∧
    decode 0b0_0000000_0_0010000_00000_0_00_00001001 = .ok (.cbcEncUpdate 16) ∧
    decode 0b0_0000000_0_0000101_00000_0_00_00001010 = .ok (.cbcEncFinal 5) := by decide

theorem test_decode_cbcDec :
    decode 0b0_0000000_0_0010000_00000_0_00_00001100 = .ok (.cbcDecStartAes 16) ∧
    decode 0b0_0000000_0_0010000_00000_0_01_00001100 = .ok (.cbcDecStartTf 16) ∧
    decode 0b0_0000000_0_0010000_00000_0_00_00001101 = .ok (.cbcDecUpdate 16) ∧
    decode 0b0_0000000_0_0000011_00000_0_00_00001110 = .ok (.cbcDecFinal 3) := by decide

theorem test_decode_control :
    decode 0b0_0000000_0_0000000_00000_0_00_00001111 = .ok .cbcAbort ∧
    decode 0b0_0000000_0_0000000_00000_0_00_00010000 = .ok .zeroize := by decide

/-- The illegal words of L2.10, each of which ends with STATUS 0x00000104. -/
theorem test_illegal_words :
    [0x00000000#32, 0x00000007, 0x00000011, 0x00000302, 0x00000202, 0x00000802, 0x80000002, 0x00100002,
        0x00000402, 0x08200001, 0x08200601].all
      (fun w => steps (next (.write 0 4 w) aesState) fun t => t.status == 0x00000104) = true := by decide +kernel

/-! ## The commands: the vectors of 95_test_vectors.md -/

theorem test_keyLoadAes : ends (.keyLoadAes 32) keyState (fun t => t.aesRk == rkK && t.status == 0x00000100) = true := by
  decide +kernel

theorem test_keyLoadAes_length :
    ends (.keyLoadAes 16) aesState (fun t => t.aesRk == rkK && t.status == 0x00000101) = true := by decide +kernel

theorem test_keyLoadTf :
    ends (.keyLoadTf 32) keyState (fun t => t.tfK == subkeysK && t.tfS == swordsK && t.status == 0x00000200) = true := by
  decide +kernel

theorem test_keyLoadTf_openStream :
    ends (.keyLoadTf 32) { tfState with strm := .enc, strmSel := .tf } (fun t => t.err == .sequenceError) = true := by
  decide

theorem test_keyLoadSalsa :
    ends (.keyLoadSalsa 32 8) keyState (fun t => t.sx == salsaK && t.status == 0x00000400) = true := by decide +kernel

theorem test_keyLoadSalsa_nonceLength :
    ends (.keyLoadSalsa 32 0) aesState (fun t => t.status == 0x00000101) = true := by decide

/-- P6: the nonce comes from the random source, eight bytes of it. -/
theorem test_keyLoadSalsaGen :
    ends (.keyLoadSalsaGen 32) aesState (fun t => t.rngDrawn == 8 && t.status == 0x00000500) = true := by decide

theorem test_keyLoadSalsaGen_nonce (t : State) (h : exec (.keyLoadSalsaGen 32) aesState = .next t) :
    t.nonce = rngBytes 8 aesState := by
  cases h; rfl

/-- V1. -/
theorem test_blockEncAes :
    ends .blockEncAes (withDin (hex 16 0xffce377fe4effce8af737f3d6ae990f2).toList aesState) (fun t =>
      t.output == (hex 16 0xedf44310bedad756166cc8c4ab92e9e3).toList && t.status == 0x00100100) = true := by decide +kernel

theorem test_blockDecAes :
    ends .blockDecAes aesState (fun t =>
      t.output == (hex 16 0x347a45d047d7ce1bef7d1871f82a0396).toList && t.status == 0x00100100) = true := by decide +kernel

/-- V4. -/
theorem test_blockEncTf :
    ends .blockEncTf tfState (fun t =>
      t.output == (hex 16 0xf803a7fd871edc3510358cb204947526).toList && t.status == 0x00100200) = true := by decide +kernel

theorem test_blockEncTf_unkeyed : ends .blockEncTf aesState (fun t => t.status == 0x00000105) = true := by decide

theorem test_blockDecTf :
    ends .blockDecTf tfState (fun t =>
      t.output == (hex 16 0xe2dbafcaaad7eb2ec4b9b9f683dedd13).toList && t.status == 0x00100200) = true := by decide +kernel

/-- V5 XOR 00 01 .. 3f (L2.6). -/
theorem test_salsaProcess :
    ends .salsaProcess { salsaState with din := Vector.ofFn fun j => BitVec.ofNat 8 j.val } (fun t =>
      t.dout == hex 64 0xec00fc6c499f1bacedc3102303f6f6558d4f304a10d34e5871a17a944e16cf8366ab52a4c13f3472eaf3dc6819a3cf11daa1e06376dfbeeeb7aafb5c8d5cb8ef
        && t.sctr0 == 1 && t.sctr1 == 0 && t.status == 0x00400400) = true := by decide +kernel

/-- The carry of the counter (L2.6). -/
theorem test_salsaProcess_carry :
    ends .salsaProcess { salsaState with sx := salsaK.set 8 0xffffffff } (fun t =>
      t.dout == hex 64 0xd7656900928b8ebbe4c6221a773a004c392d0d707d34899b4bc2e2bd4f23f418d207fc2f3b671163830d814b1367a353270da66bbebb4bffb942d91df93d58c6
        && t.sctr0 == 0 && t.sctr1 == 1) = true := by decide +kernel

theorem test_ecbEncAes :
    ends (.ecbEncAes 32) (withDin (List.replicate 16 0 ++ List.replicate 16 0xff) aesState) (fun t =>
      t.output == (hex 32 0xaf228120799c1346bf162fbdaa7fe7f2ea4bd5568473162d50c93c32128058db).toList
        && t.status == 0x00200100) = true := by decide +kernel

theorem test_ecbEncAes_lengths :
    ends (.ecbEncAes 17) aesState (fun t => t.status == 0x00000102) = true ∧
    ends (.ecbEncAes 80) aesState (fun t => t.status == 0x00000102) = true := by decide

theorem test_ecbEncTf :
    ends (.ecbEncTf 32) (withDin (List.replicate 16 0 ++ List.replicate 16 0xff) tfState) (fun t =>
      t.output == (hex 32 0xf803a7fd871edc3510358cb2049475262614e6bf9a789e4bbff8d57230a1d78e).toList
        && t.status == 0x00200200) = true := by decide +kernel

theorem test_ecbDecAes :
    ends (.ecbDecAes 16) (withDin (hex 16 0xedf44310bedad756166cc8c4ab92e9e3).toList aesState) (fun t =>
      t.output == (hex 16 0xffce377fe4effce8af737f3d6ae990f2).toList && t.status == 0x00100100) = true := by decide +kernel

theorem test_ecbDecAes_unkeyed : ends (.ecbDecAes 32) keyState (fun t => t.status == 0x00000005) = true := by decide

theorem test_ecbDecTf :
    ends (.ecbDecTf 16) (withDin (hex 16 0xf803a7fd871edc3510358cb204947526).toList tfState) (fun t =>
      t.output == (zeros 16).toList && t.status == 0x00100200) = true := by decide +kernel

theorem test_cbcEncStartAes :
    ends (.cbcEncStartAes false) { aesState with iv := iv0f } (fun t =>
      t.output == iv0f.toList && t.chain == iv0f && t.status == 0x00101100) = true := by decide +kernel

/-- P6: the IV comes from the random source, sixteen bytes of it. -/
theorem test_cbcEncStartAes_generated :
    ends (.cbcEncStartAes true) aesState (fun t => t.rngDrawn == 16 && t.status == 0x00101100) = true := by
  decide +kernel

theorem test_cbcEncStartTf :
    ends (.cbcEncStartTf false) { tfState with iv := iv0f } (fun t =>
      t.output == iv0f.toList && t.status == 0x00105200) = true := by decide +kernel

/-- The first block of the 20-byte row of L2.8. -/
theorem test_cbcEncUpdate :
    ends (.cbcEncUpdate 16) (withDin iv0f.toList encState) (fun t =>
      t.output == (hex 16 0xaf228120799c1346bf162fbdaa7fe7f2).toList && t.status == 0x00101100) = true := by decide +kernel

/-- 17 bytes with no stream: the stream check comes first (L2.10). -/
theorem test_cbcEncUpdate_noStream : ends (.cbcEncUpdate 17) aesState (fun t => t.status == 0x00000105) = true := by decide

/-- "abc" (L2.8). -/
theorem test_cbcEncFinal :
    ends (.cbcEncFinal 3) (withDin [0x61, 0x62, 0x63] encState) (fun t =>
      t.output == (hex 16 0xd7b07ea5ff50ed73fa24a92ddab30539).toList && t.status == 0x00100100) = true := by decide +kernel

theorem test_cbcDecStartAes :
    ends (.cbcDecStartAes 16) (withDin iv0f.toList aesState) (fun t => t.chain == iv0f && t.status == 0x00002100) = true := by
  decide +kernel

theorem test_cbcDecStartAes_lengths :
    ends (.cbcDecStartAes 8) aesState (fun t => t.status == 0x00000103) = true ∧
    ends (.cbcDecStartAes 20) aesState (fun t => t.status == 0x00000102) = true := by decide

theorem test_cbcDecStartTf :
    ends (.cbcDecStartTf 16) (withDin iv0f.toList tfState) (fun t => t.chain == iv0f && t.status == 0x00006200) = true := by
  decide +kernel

/-- The row "valid 02 02" of L2.9. -/
theorem test_cbcDecUpdate :
    ends (.cbcDecUpdate 16) (withDin (hex 16 0x99044fd4ea02400328c35ef48fed5456).toList decState) (fun t =>
      t.held == hex 16 0x0202 && t.output == [] && t.status == 0x0000a100) = true := by decide +kernel

theorem test_cbcDecUpdate_encStream :
    ends (.cbcDecUpdate 16) encState (fun t => t.status == 0x00000105) = true := by decide

theorem test_cbcDecFinal :
    ends (.cbcDecFinal 0) (heldState (hex 16 0x0202)) (fun t =>
      t.output == List.replicate 14 0 && t.status == 0x000e0100) = true := by decide +kernel

/-- The three causes of bad padding (L2.9). -/
theorem test_cbcDecFinal_badPadding :
    ∀ p ∈ [(0 : Nat), 0x11, 0x0302], ends (.cbcDecFinal 0) (heldState (hex 16 p)) (fun t => t.status == 0x00000103) = true := by
  decide +kernel

theorem test_cbcAbort : ends .cbcAbort (heldState (zeros 16)) (fun t => t.status == 0x00000100) = true := by decide

theorem test_zeroize :
    ends .zeroize encState (fun t => t.status == 0 && t.key == zeros 32 && t.aesRk == State.reset.aesRk) = true := by decide

/-! ## Reset (70_reset_and_hazards.md R250) -/

/-- `rst_n` goes low and the key is gone, and the access behind the edge waits. -/
theorem test_resetLow :
    steps { aesState with inputs := [.resetLow, .access (.read 4 4)] } (fun t =>
      !t.rstN && t.aesKeyed == false && t.key == zeros 32 && t.inputs == [.access (.read 4 4)]) = true := by decide

/-- An access that waits while `rst_n` is low is still waiting when it goes high. -/
theorem test_resetHigh_past_access :
    steps { State.reset with rstN := false, inputs := [.access (.read 4 4), .resetHigh] } (fun t =>
      t.rstN && t.bus == .none && t.inputs == [.access (.read 4 4)]) = true := by decide

/-! ## The primitives (L2.1, L2.4, L2.6) -/

theorem test_sbox :
    [0x00, 0x01, 0x10, 0x53, 0xff].map sbox = [0x63, 0x7c, 0xca, 0xed, 0x16] ∧
    [0x63, 0xed, 0x16, 0x00].map invSbox = [0x00, 0x53, 0xff, 0x52] := by decide

theorem test_gfmul : gfmul 0x57 0x83 0x11B = 0xc1 ∧ gfmul 0x57 0x13 0x11B = 0xfe := by decide

theorem test_shiftRows :
    fromState (shiftRows (toState iv0f)) = hex 16 0x00050a0f04090e03080d02070c01060b ∧
    fromState (invShiftRows (toState iv0f)) = hex 16 0x000d0a0704010e0b0805020f0c090603 := by decide +kernel

theorem test_mixColumns :
    fromState (mixColumns (toState (hex 16 0xdb135345f20a225cd4d4d4d52d26314c))) =
      hex 16 0x8e4da1bc9fdc589dd5d5d7d64d7ebdf8 := by decide +kernel

theorem test_qTables :
    [0x00, 0x01, 0x02, 0x03, 0xff].map q0 = [0xa9, 0x67, 0xb3, 0xe8, 0xe0] ∧
    [0x00, 0x01, 0x02, 0x03, 0xff].map q1 = [0x75, 0xf3, 0xc6, 0xf4, 0x91] := by decide

theorem test_quarterround :
    quarterround 0xe7e8c006 0xc4f9417d 0x6479b4b2 0x68c67137 =
      ⟨0xe876d72b, 0x9361dfd5, 0xf1460244, 0x948541a3⟩ := by decide

theorem test_doubleround :
    (doubleround salsaK).toList.take 4 = [0xe1151d9f, 0x7d05d41d, 0x34da54b2, 0xa83fdf08] := by decide +kernel

/-! ## Witnesses: the hypotheses of each statement, met together -/

/-- The answer to a command, from a test of its state. -/
theorem exec_after (i : Instr) (s : State) : exec i s = .next (after i s) := by cases i <;> rfl

/-- A step that ends so answers a next state. -/
theorem step_of_steps {s : State} {p : State → Bool} (h : steps s p = true) : ∃ t, step s = .next t := by
  unfold steps at h
  split at h
  · exact ⟨_, ‹_›⟩
  · cases h
  · cases h

theorem witness_DecodeUndoesEncode :
    (Instr.keyLoadSalsa 127 127).wellFormed = true ∧ (Instr.cbcDecFinal 0).wellFormed = true := by decide

theorem witness_EncodeUndoesDecode : decode 0x7F7F0201 = .ok (.keyLoadSalsa 127 127) := by decide

theorem witness_WordMatchesOnlyItsRow :
    decode 0x7F7F0201 = .ok (.keyLoadSalsa 127 127) ∧ decode 0x7F7F0601 = .error .unusedFieldSet := by decide

/-- One word for each of the cases (a) to (d) of R76. -/
theorem witness_IllegalWordsAreThoseOfTheMap :
    illegalWord 0x00000011 = true ∧ illegalWord 0x00000302 = true ∧ illegalWord 0x80000002 = true ∧
    illegalWord 0x00000402 = true ∧ decode 0x00000402 = .error .unusedFieldSet := by decide

/-- An illegal word with an opcode of R95's seven, and one with 0x07, 0x10 and 0x0B, which lie outside them. -/
theorem witness_IllegalWordAbortsOnlyForCbcOpcode :
    (illegalWord 0x8000000F = true ∧
      (0x8000000F : Word).extractLsb' 0 8 ∈ [0x08#8, 0x09#8, 0x0A#8, 0x0C#8, 0x0D#8, 0x0E#8, 0x0F#8]) ∧
    (illegalWord 0x00000007 = true ∧
      (0x00000007 : Word).extractLsb' 0 8 ∉ [0x08#8, 0x09#8, 0x0A#8, 0x0C#8, 0x0D#8, 0x0E#8, 0x0F#8]) ∧
    (illegalWord 0x80000010 = true ∧
      (0x80000010 : Word).extractLsb' 0 8 ∉ [0x08#8, 0x09#8, 0x0A#8, 0x0C#8, 0x0D#8, 0x0E#8, 0x0F#8]) ∧
    (illegalWord 0x0000000B = true ∧
      (0x0000000B : Word).extractLsb' 0 8 ∉ [0x08#8, 0x09#8, 0x0A#8, 0x0C#8, 0x0D#8, 0x0E#8, 0x0F#8]) := by decide

/-- A wrong width at a good offset, and a good width at a wrong one, for a read and for a write. -/
theorem witness_BusErrorChangesNothing :
    (¬ (2 = 4 ∧ (0x000#12).toNat % 4 = 0) ∧ ServesNext (.read 0x000 2) [] (next (.read 0x000 2) aesState)) ∧
    (¬ (4 = 4 ∧ (0xFFF#12).toNat % 4 = 0) ∧ ServesNext (.read 0xFFF 4) [] (next (.read 0xFFF 4) aesState)) ∧
    ServesNext (.write 0x000 1 0x10) [] (next (.write 0x000 1 0x10) aesState) ∧
    ServesNext (.write 0x002 4 0x10) [] (next (.write 0x002 4 0x10) aesState) ∧
    ((4 = 4 ∧ (0xFFC#12).toNat % 4 = 0) ∧ ServesNext (.read 0xFFC 4) [] (next (.read 0xFFC 4) aesState)) ∧
    ((4 = 4 ∧ (0x000#12).toNat % 4 = 0) ∧ ServesNext (.write 0x000 4 0x10) [] (next (.write 0x000 4 0x10) aesState)) :=
  ⟨⟨by decide, rfl, rfl⟩, ⟨by decide, rfl, rfl⟩, ⟨rfl, rfl⟩, ⟨rfl, rfl⟩, ⟨by decide, rfl, rfl⟩, ⟨by decide, rfl, rfl⟩⟩

/-- The first and the last offset of every clause. -/
theorem witness_ReadsFollowTheRegisterMap :
    (∀ off : BitVec 12, ServesNext (.read off 4) [] (next (.read off 4) salsaState)) ∧
    ([0x000#12, 0x004, 0x008, 0x00C, 0x010, 0x02C, 0x030, 0x034, 0x038, 0x03C, 0x040, 0x04C, 0x050, 0x07C, 0x080,
      0x0BC, 0x0C0, 0x0FC, 0x100, 0xFFC].all fun off => off.toNat % 4 == 0) = true ∧
    (0x010 = 0x010 + 4 * 0 ∧ 0x02C = 0x010 + 4 * 7) ∧ (0x030 = 0x030 + 4 * 0 ∧ 0x034 = 0x030 + 4 * 1) ∧
    (0x040 = 0x040 + 4 * 0 ∧ 0x04C = 0x040 + 4 * 3) ∧ (0x080 = 0x080 + 4 * 0 ∧ 0x0BC = 0x080 + 4 * 15) ∧
    (0x0C0 = 0x0C0 + 4 * 0 ∧ 0x0FC = 0x0C0 + 4 * 15) :=
  ⟨fun _ => ⟨rfl, rfl⟩, by decide, by decide, by decide, by decide, by decide, by decide⟩

/-- The first and the last word of each register. -/
theorem witness_DataRegisterWritesStoreFourBytes :
    (∀ off v, ServesNext (.write off 4 v) [] (next (.write off 4 v) aesState)) ∧
    (0 < 8 ∧ (0x010#12).toNat = 0x010 + 4 * 0) ∧ (7 < 8 ∧ (0x02C#12).toNat = 0x010 + 4 * 7) ∧
    (0 < 2 ∧ (0x030#12).toNat = 0x030 + 4 * 0) ∧ (1 < 2 ∧ (0x034#12).toNat = 0x030 + 4 * 1) ∧
    (0 < 4 ∧ (0x040#12).toNat = 0x040 + 4 * 0) ∧ (3 < 4 ∧ (0x04C#12).toNat = 0x040 + 4 * 3) ∧
    (0 < 16 ∧ (0x080#12).toNat = 0x080 + 4 * 0) ∧ (15 < 16 ∧ (0x0BC#12).toNat = 0x080 + 4 * 15) :=
  ⟨fun _ _ => ⟨rfl, rfl⟩, by decide, by decide, by decide, by decide, by decide, by decide, by decide, by decide⟩

/-- The first and the last offset of each range. -/
theorem witness_ReadOnlyAndReservedWritesAreIgnored :
    (∀ off v, ServesNext (.write off 4 v) [] (next (.write off 4 v) aesState)) ∧
    ([0x004#12, 0x00C, 0x038, 0x03C, 0x050, 0x07C, 0x0C0, 0x0FC, 0x100, 0xFFC].all fun off =>
      decide (off.toNat % 4 = 0 ∧
        ((0x004 ≤ off.toNat ∧ off.toNat ≤ 0x00C) ∨ (0x038 ≤ off.toNat ∧ off.toNat ≤ 0x03C) ∨
          (0x050 ≤ off.toNat ∧ off.toNat ≤ 0x07C) ∨ 0x0C0 ≤ off.toNat))) = true :=
  ⟨fun _ _ => ⟨rfl, rfl⟩, by decide⟩

/-- Two keys, two key schedules, two Salsa20 keys and two chain blocks. -/
theorem witness_SecretsAreNeverRead :
    let s := next (.read 0x010 4) { salsaState with aesRk := rkK, aesKeyed := true, chain := iv0f }
    let t := next (.read 0x010 4)
      { salsaState with key := zeros 32, aesKeyed := true, sx := salsaK.set 1 0 }
    s.SameButSecrets t ∧ s.key ≠ t.key ∧ ServesNext (.read 0x010 4) [] s ∧
    ({ s with rstN := false } : State).SameButSecrets { t with rstN := false } := by
  refine ⟨⟨rfl, by decide, by decide⟩, by decide +kernel, ⟨rfl, rfl⟩, ⟨rfl, by decide, by decide⟩⟩

theorem witness_HostAddressesReachTheWindow :
    Config.coreBase + 4096 < Config.coreBase ∨ Config.coreBase + 4096 ≤ Config.coreBase + 4096 := .inr (Nat.le_refl _)

/-- A full register of each kind, and a byte string that ends inside a word. -/
theorem witness_WrbufFillsTheRegister :
    (∀ r b, ({ aesState with inputs := wrbuf r b } : State).inputs = wrbuf r b) ∧ aesState.rstN = true ∧
    keyK.toList.length ≤ 32 ∧ (zeros 8).toList.length ≤ 8 ∧ iv0f.toList.length ≤ 16 ∧ (zeros 64).toList.length ≤ 64 ∧
    ([0x61, 0x62, 0x63] : List Byte).length ≤ 8 := by
  refine ⟨fun _ _ => rfl, rfl, ?_, ?_, ?_, ?_, ?_⟩ <;> simp

theorem witness_StepRunsTheDecodedCommand :
    ServesNext (.write 0x000 4 0x00000204) [] (next (.write 0x000 4 0x00000204) salsaState) ∧
    decode 0x00000204 = .ok .salsaProcess ∧
    exec .salsaProcess { next (.write 0x000 4 0x00000204) salsaState with inputs := [] } =
      .next (after .salsaProcess { next (.write 0x000 4 0x00000204) salsaState with inputs := [] }) ∧
    ServesNext (.write 0x000 4 0x8000000E) [] (next (.write 0x000 4 0x8000000E) decState) ∧
    illegalWord 0x8000000E = true ∧ decodeTableWord 32 0x00000204 = some .salsaProcess ∧
    exec .salsaProcess { salsaState with rstN := true } =
      .next (after .salsaProcess { salsaState with rstN := true }) :=
  ⟨⟨rfl, rfl⟩, by decide, exec_after _ _, ⟨rfl, rfl⟩, by decide, by decide, exec_after _ _⟩

/-- No input; and while `rst_n` is low, two accesses that wait. -/
theorem witness_IdleStepDoesNothing :
    State.reset.inputs = [] ∧
    (let s : State := { State.reset with rstN := false, inputs := [.access (.read 0 4), .access (.write 0 4 0x10)] }
     s.rstN = false ∧ s.inputs = [Access.read 0 4, Access.write 0 4 0x10].map .access) := ⟨rfl, rfl, rfl⟩

/-- The reset between two accesses, and in the middle of one; with no access before `rst_n` is high, and with one. -/
theorem witness_ResetLeavesNoTrace :
    (∀ low, ({ encState with inputs := [low, .resetHigh] } : State).inputs =
      low :: (([] : List Access).map .access ++ .resetHigh :: [])) ∧
    (∀ low b, ({ encState with inputs := [low, .access b, .resetHigh] } : State).inputs =
      low :: ([b].map .access ++ .resetHigh :: [])) ∧
    ∀ a, (Input.resetLow = .resetLow ∨ Input.resetLow = .resetDuring a) ∧
      (Input.resetDuring a = .resetLow ∨ Input.resetDuring a = .resetDuring a) :=
  ⟨fun _ => rfl, fun _ _ => rfl, fun _ => ⟨.inl rfl, .inr rfl⟩⟩

theorem witness_ResetReadsZero : (0x000#12).toNat % 4 = 0 ∧ (0xFFC#12).toNat % 4 = 0 := by decide

/-- The invariants hold of a state with an open stream and a held block, and its next step runs a command. -/
theorem witness_StepKeepsTheInvariants :
    (next (.write 0x000 4 0x0000000E) (heldState (zeros 16))).Inv ∧
    ∃ t, step (next (.write 0x000 4 0x0000000E) (heldState (zeros 16))) = .next t :=
  ⟨{ idle := by decide, heldInDec := by decide, encHoldsNothing := by decide, aesUnkeyed := by decide
     tfUnkeyed := by decide, salsaUnready := by decide, streamKeyed := by decide, outLenBound := by decide
     doutTail := by decide, failedClean := by decide, resetHeld := nofun }, step_of_steps (p := fun _ => true) (by decide)⟩

/-- Two steps: a key is loaded, and `rst_n` goes low. -/
theorem witness_InvariantsHoldOnEveryRun :
    ∃ t, Host.Core.run Sys2Proof.core 2
      { State.reset with inputs := [.access (.write 0x000 4 0x08200201), .resetLow] } = .next t := ⟨_, rfl⟩

theorem witness_StepKeepsTheSalsaConstants :
    (next (.write 0x000 4 0x00000204) salsaState).SalsaDiagonal ∧ salsaState.salsaReady = true ∧
    ∃ t, step (next (.write 0x000 4 0x00000204) salsaState) = .next t :=
  ⟨fun _ => by decide, rfl, step_of_steps (p := fun _ => true) (by decide)⟩

theorem witness_CommandsReportTheFirstError :
    illegalWord 0x8000000E = true ∧ decode 0x0000000E = .ok (.cbcDecFinal 0) := by decide

/-- A failing CBC command in an open stream, and a failing command of another kind. -/
theorem witness_FailureWritesOnlyTheResult :
    (exec (.cbcDecFinal 5) decState = .next (after (.cbcDecFinal 5) decState) ∧
      (after (.cbcDecFinal 5) decState).err ≠ .ok ∧ isCbcCommand (.cbcDecFinal 5) = true) ∧
    (exec (.ecbEncAes 17) decState = .next (after (.ecbEncAes 17) decState) ∧
      (after (.ecbEncAes 17) decState).err ≠ .ok ∧ isCbcCommand (.ecbEncAes 17) = false) :=
  ⟨⟨exec_after _ _, by decide, rfl⟩, ⟨exec_after _ _, by decide, rfl⟩⟩

theorem witness_EveryCommandRewritesDout :
    exec .cbcAbort encState = .next (after .cbcAbort encState) ∧
    exec (.ecbEncAes 17) encState = .next (after (.ecbEncAes 17) encState) ∧
      (after (.ecbEncAes 17) encState).err ≠ .ok :=
  ⟨exec_after _ _, exec_after _ _, by decide⟩

/-- A command outside every list of writers, and a successful SALSA_PROCESS. -/
theorem witness_ContextsHaveTheirOnlyWriters :
    exec .salsaProcess salsaState = .next (after .salsaProcess salsaState) ∧ Instr.salsaProcess ≠ .zeroize ∧
    (∀ len, Instr.salsaProcess ≠ .keyLoadAes len) ∧ (∀ len, Instr.salsaProcess ≠ .keyLoadTf len) ∧
    (∀ len nlen, Instr.salsaProcess ≠ .keyLoadSalsa len nlen) ∧ (∀ len, Instr.salsaProcess ≠ .keyLoadSalsaGen len) ∧
    exec .cbcAbort salsaState = .next (after .cbcAbort salsaState) ∧ Instr.cbcAbort ≠ .salsaProcess :=
  ⟨exec_after _ _, nofun, nofun, nofun, nofun, nofun, exec_after _ _, nofun⟩

theorem witness_DataRegistersHaveTheirOnlyWriters :
    exec (.cbcEncStartAes false) aesState = .next (after (.cbcEncStartAes false) aesState) ∧
    Instr.cbcEncStartAes false ≠ .zeroize ∧ (∀ len, Instr.cbcEncStartAes false ≠ .keyLoadSalsaGen len) ∧
    Instr.cbcEncStartAes false ≠ .cbcEncStartAes true ∧ Instr.cbcEncStartAes false ≠ .cbcEncStartTf true :=
  ⟨exec_after _ _, nofun, nofun, by decide, nofun⟩

theorem witness_OnlyGeneratingCommandsDraw :
    exec (.keyLoadSalsaGen 32) aesState = .next (after (.keyLoadSalsaGen 32) aesState) ∧
    (after (.keyLoadSalsaGen 32) aesState).err = .ok := ⟨exec_after _ _, by decide⟩

/-- A key is loaded for the other cipher while an AES stream is open. -/
theorem witness_OtherCommandsLeaveTheStream :
    isCbcCommand (.keyLoadTf 32) = false ∧ Instr.keyLoadTf 32 ≠ .zeroize ∧ encState.strm = .enc ∧
    exec (.keyLoadTf 32) encState = .next (after (.keyLoadTf 32) encState) ∧
    (encState.strm ≠ .idle ∧ encState.strmSel = .aes) ∧
    (({ tfState with strm := .dec, strmSel := .tf } : State).strm ≠ .idle ∧
      ({ tfState with strm := .dec, strmSel := .tf } : State).strmSel = .tf) :=
  ⟨rfl, nofun, rfl, exec_after _ _, ⟨nofun, rfl⟩, nofun, rfl⟩

/-- A KEY_LOAD of the stream's cipher; of another one, with a wrong length and with the right one. -/
theorem witness_KeyLoadAesLoadsTheSchedule :
    (encState.strm ≠ .idle ∧ encState.strmSel = .aes) ∧ ¬ (aesState.strm ≠ .idle ∧ aesState.strmSel = .aes) ∧
    (31 : Nat) ≠ 32 ∧ (33 : Nat) ≠ 32 := by decide

theorem witness_KeyLoadTfLoadsTheSchedule :
    (({ tfState with strm := .dec, strmSel := .tf } : State).strm ≠ .idle ∧
      ({ tfState with strm := .dec, strmSel := .tf } : State).strmSel = .tf) ∧
    ¬ (encState.strm ≠ .idle ∧ encState.strmSel = .tf) ∧ (31 : Nat) ≠ 32 := by decide

/-- The ends of the two ranges of i. -/
theorem witness_AesScheduleFollowsTheRecurrence : 7 < 8 ∧ (8 ≤ 8 ∧ 8 < 60) ∧ (8 ≤ 12 ∧ 12 < 60) ∧ (8 ≤ 59 ∧ 59 < 60) := by
  decide

theorem witness_TwofishKeyMaterial : 0 < 4 ∧ 3 < 4 ∧ 0 < 20 ∧ 19 < 20 := by decide

/-- A wrong key length, a wrong nonce length. -/
theorem witness_KeyLoadSalsaSeedsTheState : ((31 : Nat) ≠ 32 ∨ 8 ≠ 8) ∧ (32 ≠ 32 ∨ (7 : Nat) ≠ 8) ∧ (33 : Nat) ≠ 32 := by
  decide

theorem witness_BlockCommandsTransformOneBlock :
    keyState.keyed .aes = false ∧ aesState.keyed .aes = true ∧ aesState.keyed .tf = false ∧ tfState.keyed .tf = true := by
  decide

theorem witness_SalsaProcessXorsAndCounts : keyState.salsaReady = false ∧ salsaState.salsaReady = true := by decide

/-- No block, four blocks; a broken block, five blocks. -/
theorem witness_EcbCommandsTransformEachBlock :
    keyState.keyed .aes = false ∧ aesState.keyed .aes = true ∧ tfState.keyed .tf = true ∧
    (0 % 16 = 0 ∧ 0 ≤ 64) ∧ (64 % 16 = 0 ∧ 64 ≤ 64) ∧ ¬ (63 % 16 = 0 ∧ 63 ≤ 64) ∧ ¬ (80 % 16 = 0 ∧ 80 ≤ 64) ∧
    3 < 64 / 16 := by decide

theorem witness_CbcEncStartOpensAStream :
    (encState.strm ≠ .idle ∨ encState.keyed .aes = false) ∧ (keyState.strm ≠ .idle ∨ keyState.keyed .aes = false) ∧
    (aesState.strm = .idle ∧ aesState.keyed .aes = true) ∧ (tfState.strm = .idle ∧ tfState.keyed .tf = true) := by decide

theorem witness_CbcEncUpdateChainsOneBlock :
    decState.strm ≠ .enc ∧ (encState.strm = .enc ∧ encState.strmSel = .aes) ∧
    (({ tfState with strm := .enc, strmSel := .tf } : State).strm = .enc ∧
      ({ tfState with strm := .enc, strmSel := .tf } : State).strmSel = .tf) ∧ (15 : Nat) ≠ 16 ∧ (17 : Nat) ≠ 16 := by decide

theorem witness_CbcEncFinalPadsAndCloses :
    decState.strm ≠ .enc ∧ encState.strm = .enc ∧ encState.strmSel = .aes ∧ (15 : Nat) < 16 ∧ 0 ≤ 15 ∧ 15 ≤ 15 ∧
    (({ tfState with strm := .enc, strmSel := .tf } : State).strm = .enc ∧
      ({ tfState with strm := .enc, strmSel := .tf } : State).strmSel = .tf) := by decide

/-- The lengths next to 16 on each side. -/
theorem witness_CbcDecStartOpensAStream :
    (encState.strm ≠ .idle ∨ encState.keyed .aes = false) ∧ (keyState.strm ≠ .idle ∨ keyState.keyed .aes = false) ∧
    (aesState.strm = .idle ∧ aesState.keyed .aes = true) ∧ (tfState.strm = .idle ∧ tfState.keyed .tf = true) ∧
    16 < 17 ∧ 15 < 16 := by decide

theorem witness_CbcDecUpdateLagsOneBlock :
    encState.strm ≠ .dec ∧ (decState.strm = .dec ∧ decState.heldValid = false ∧ decState.strmSel = .aes) ∧
    ((heldState iv0f).strm = .dec ∧ (heldState iv0f).heldValid = true) ∧ (15 : Nat) ≠ 16 ∧
    (({ tfState with strm := .dec, strmSel := .tf } : State).strm = .dec ∧
      ({ tfState with strm := .dec, strmSel := .tf } : State).strmSel = .tf) := by decide

/-- No held block, a length of 15, the three causes of bad padding, and padding of 1, 2 and 16 bytes. -/
theorem witness_CbcDecFinalStripsThePadding :
    encState.strm ≠ .dec ∧ decState.strm = .dec ∧ (16 : Nat) ≤ 16 ∧ (15 < 16 ∧ (15 : Nat) ≠ 0) ∧ decState.heldValid = false ∧
    (∀ p ∈ [(0 : Nat), 0x11, 0x0302], (heldState (hex 16 p)).strm = .dec ∧ ¬ GoodPadding (heldState (hex 16 p)).held) ∧
    (∀ p ∈ [(0x01 : Nat), 0x0202, 0x10101010101010101010101010101010],
      (heldState (hex 16 p)).strm = .dec ∧ (heldState (hex 16 p)).heldValid = true ∧
        GoodPadding (heldState (hex 16 p)).held) := by decide +kernel

theorem witness_AesDecryptUndoesEncrypt :
    exec .blockEncAes encState = .next (after .blockEncAes encState) ∧ (after .blockEncAes encState).err = .ok ∧
    exec .blockDecAes { after .blockEncAes encState with din := (after .blockEncAes encState).dout } =
      .next (after .blockDecAes { after .blockEncAes encState with din := (after .blockEncAes encState).dout }) :=
  ⟨exec_after _ _, by decide, exec_after _ _⟩

theorem witness_TwofishSboxesArePermutations : 0 < 4 ∧ 3 < 4 := by decide

/-- Two cores with the same key and nonce, one of them with an open stream; and a generated nonce that the host then writes to
the other core. -/
theorem witness_SalsaLockstep :
    (exec (.keyLoadSalsa 32 8) keyState = .next (after (.keyLoadSalsa 32 8) keyState) ∧
      exec (.keyLoadSalsa 32 8) encState = .next (after (.keyLoadSalsa 32 8) encState) ∧ keyState.key = encState.key ∧
      (after (.keyLoadSalsa 32 8) keyState).nonce = (after (.keyLoadSalsa 32 8) encState).nonce) ∧
    (let n := (after (.keyLoadSalsaGen 32) keyState).nonce
     exec (.keyLoadSalsaGen 32) keyState = .next (after (.keyLoadSalsaGen 32) keyState) ∧
      exec (.keyLoadSalsa 32 8) { keyState with nonce := n } = .next (after (.keyLoadSalsa 32 8) { keyState with nonce := n }) ∧
      n = (after (.keyLoadSalsa 32 8) { keyState with nonce := n }).nonce) :=
  ⟨⟨exec_after _ _, exec_after _ _, rfl, rfl⟩, exec_after _ _, exec_after _ _, rfl⟩

/-- Two blocks through AES, and four through Twofish. -/
theorem witness_EcbDecryptUndoesEncrypt :
    (exec (.ecbEncAes 32) aesState = .next (after (.ecbEncAes 32) aesState) ∧
      (after (.ecbEncAes 32) aesState).err = .ok ∧
      exec (.ecbDecAes 32) { after (.ecbEncAes 32) aesState with din := (after (.ecbEncAes 32) aesState).dout } =
        .next (after (.ecbDecAes 32) { after (.ecbEncAes 32) aesState with din := (after (.ecbEncAes 32) aesState).dout })) ∧
    (exec (.ecbEncTf 64) tfState = .next (after (.ecbEncTf 64) tfState) ∧ (after (.ecbEncTf 64) tfState).err = .ok ∧
      exec (.ecbDecTf 64) { after (.ecbEncTf 64) tfState with din := (after (.ecbEncTf 64) tfState).dout } =
        .next (after (.ecbDecTf 64) { after (.ecbEncTf 64) tfState with din := (after (.ecbEncTf 64) tfState).dout })) :=
  ⟨⟨exec_after _ _, by decide +kernel, exec_after _ _⟩, exec_after _ _, by decide +kernel, exec_after _ _⟩

theorem witness_EcbSplitsAtBlockBoundaries :
    (zeros 64).toList.length % 16 = 0 ∧ (zeros 16).toList.length % 16 = 0 ∧ ([] : List Byte).length % 16 = 0 := by simp

theorem witness_EncryptionStreamIsCbc : aesState.strm = .idle ∧ aesState.keyed .aes = true := by decide

/-- A stream whose one block recovers to "abc" and thirteen 0d bytes (P2). -/
theorem witness_DecryptionStreamIsCbc_good :
    aesState.strm = .idle ∧ aesState.keyed .aes = true ∧
    (let S := iv0f.toList ++ (hex 16 0xd7b07ea5ff50ed73fa24a92ddab30539).toList
     32 ≤ S.length ∧ (S.length - 16) % 16 = 0 ∧
       GoodPadding (recovered (blockDecrypt aesState .aes) S ((S.length - 16) / 16))) := by
  refine ⟨by decide, by decide, ?_⟩
  decide +kernel

/-- A stream with no IV, one with no block, one with a broken block. -/
theorem witness_DecryptionStreamIsCbc_bad :
    aesState.strm = .idle ∧ aesState.keyed .aes = true ∧
    ∀ n ∈ [0, 15, 16, 33, 47], ¬ (32 ≤ (List.replicate n (0 : Byte)).length ∧
      ((List.replicate n (0 : Byte)).length - 16) % 16 = 0 ∧
      GoodPadding (recovered (blockDecrypt aesState .aes) (List.replicate n 0)
        (((List.replicate n (0 : Byte)).length - 16) / 16))) := by
  refine ⟨by decide, by decide, fun n hn => ?_⟩
  simp only [List.length_replicate, List.mem_cons, List.not_mem_nil, or_false] at hn ⊢
  rintro ⟨h1, h2, -⟩
  omega

theorem witness_CbcStreamRoundTrip :
    (aesState.strm = .idle ∧ aesState.keyed .aes = true) ∧ (tfState.strm = .idle ∧ tfState.keyed .tf = true) := by decide

end Sys2Proof.Tests
end

/-! ## The one form of every command's answer -/

namespace Sys2Proof.Machine

open Sys2Proof Sys2Proof.Spec

/-- The host reads the padding of a block byte by byte as the core does (44_modes.md R197). -/
theorem padOk_iff (p : Block) : padOk p = true ↔ GoodPadding p := by
  have hbyte (j : Nat) (hj : j < 16) :
      (decide (j < 16 - padLen p) || byteAt p j == p[15]) = true ↔ (16 - padLen p ≤ j → p[j] = p[15]) := by
    rw [byteAt_of_lt p hj, Bool.or_eq_true, decide_eq_true_iff, beq_iff_eq, imp_iff_not_or, Nat.not_le]
  simp only [padOk, Bool.and_eq_true, decide_eq_true_iff, List.all_eq_true, List.mem_range, and_assoc]
  refine and_congr_right fun _ => and_congr_right fun _ => ?_
  exact ⟨fun h j => (hbyte j j.isLt).1 (h j j.isLt), fun h j hj => (hbyte j hj).2 (h ⟨j, hj⟩)⟩

/-- How a command with opcode `op` ends: with the output `out` in the state `u` when its first error `e` is none, else by
raising `e` in the state `s` it began in (40_command.md R93, R94). -/
def conclude (op : BitVec 8) (e : ErrCode) (out : List Byte) (u s : State) : State :=
  if e = .ok then complete out u else raiseError op e s

/-- The IV of a CBC_ENC_START: drawn when GEN = 1, else what IV holds (44_modes.md R198). -/
def chosenIv (gen : Bool) (s : State) : Block := if gen then rngBytes 16 s else s.iv

/-- The state once the chosen IV stands in IV. -/
def withIv (gen : Bool) (s : State) : State :=
  { s with iv := chosenIv gen s, rngDrawn := s.rngDrawn + if gen then 16 else 0 }

/-- An encryption stream opened under a cipher, chained to IV (44_modes.md R198). -/
def openEnc (c : CipherSel) (s : State) : State := { s with strm := .enc, strmSel := c, chain := s.iv }

/-- A decryption stream opened under a cipher, chained to the first block of DIN (44_modes.md R205). -/
def openDec (c : CipherSel) (s : State) : State :=
  { s with strm := .dec, strmSel := c, chain := slice s.din 0 16, held := zeros 16, heldValid := false }

/-- The block that CBC_ENC_UPDATE gives (44_modes.md R199). -/
def nextCipherBlock (s : State) : Block := blockEncrypt s s.strmSel (xorBytes (slice s.din 0 16) s.chain)

/-- What a successful command writes beside the result fields. -/
def effect (i : Instr) (s : State) : State :=
  match i with
  | .keyLoadAes _ => loadAes s
  | .keyLoadTf _ => loadTf s
  | .keyLoadSalsa _ _ => loadSalsa s.nonce s
  | .keyLoadSalsaGen _ => loadSalsa (rngBytes 8 s) { afterDraw 8 s with nonce := rngBytes 8 s }
  | .salsaProcess => { s with sx := counterInc s.sx }
  | .cbcEncStartAes gen => openEnc .aes (withIv gen s)
  | .cbcEncStartTf gen => openEnc .tf (withIv gen s)
  | .cbcEncUpdate _ => { s with chain := nextCipherBlock s }
  | .cbcEncFinal _ => { s with strm := .idle, strmSel := .aes, chain := zeros 16 }
  | .cbcDecStartAes _ => openDec .aes s
  | .cbcDecStartTf _ => openDec .tf s
  | .cbcDecUpdate _ =>
    { s with
      chain := slice s.din 0 16
      held := xorBytes (blockDecrypt s s.strmSel (slice s.din 0 16)) s.chain
      heldValid := true }
  | .cbcDecFinal _ | .cbcAbort => closeStream s
  | .zeroize => clearCore s
  | .blockEncAes | .blockEncTf | .blockDecAes | .blockDecTf => s
  | .ecbEncAes _ | .ecbEncTf _ | .ecbDecAes _ | .ecbDecTf _ => s

/-- The output of a successful command. -/
def outputOf (i : Instr) (s : State) : List Byte :=
  match i with
  | .blockEncAes => (aesCipher s.aesRk (slice s.din 0 16)).toList
  | .blockEncTf => (tfEncrypt s.tfK s.tfS (slice s.din 0 16)).toList
  | .blockDecAes => (aesInvCipher s.aesRk (slice s.din 0 16)).toList
  | .blockDecTf => (tfDecrypt s.tfK s.tfS (slice s.din 0 16)).toList
  | .salsaProcess => (xorBytes (slice s.din 0 64) (salsaBlock s.sx)).toList
  | .ecbEncAes len => ecbBuffer (blockEncrypt s .aes) (dinBuffer s len)
  | .ecbEncTf len => ecbBuffer (blockEncrypt s .tf) (dinBuffer s len)
  | .ecbDecAes len => ecbBuffer (blockDecrypt s .aes) (dinBuffer s len)
  | .ecbDecTf len => ecbBuffer (blockDecrypt s .tf) (dinBuffer s len)
  | .cbcEncStartAes gen | .cbcEncStartTf gen => (chosenIv gen s).toList
  | .cbcEncUpdate _ => (nextCipherBlock s).toList
  | .cbcEncFinal len => (blockEncrypt s s.strmSel (xorBytes (pad (dinBuffer s len)) s.chain)).toList
  | .cbcDecUpdate _ => if s.heldValid then s.held.toList else []
  | .cbcDecFinal _ => unpad s.held
  | .keyLoadAes _ | .keyLoadTf _ | .keyLoadSalsa _ _ | .keyLoadSalsaGen _ => []
  | .cbcDecStartAes _ | .cbcDecStartTf _ | .cbcAbort | .zeroize => []

theorem loadBlockKey_eq_conclude (c : CipherSel) (len : Nat) (load : State → State) (s : State) :
    loadBlockKey c len load s = conclude 0x01
      (if s.strm ≠ .idle ∧ s.strmSel = c then .sequenceError else if len ≠ 32 then .configurationError else .ok)
      [] (load s) s := by
  have hr : (s.strm ≠ .idle ∧ s.strmSel = c) ↔ s.rekeysStream c = true := by simp [State.rekeysStream]
  rcases loadBlockKey_cases c len load s with ⟨hc, h⟩ | ⟨hc, hl, h⟩ | ⟨hc, hl, h⟩ <;> rw [h]
  · rw [if_pos (hr.2 hc)]; rfl
  · simp only [hr, hc, if_pos hl]; rfl
  · simp only [hr, hc, hl]; rfl

theorem runBlock_eq_conclude (op : BitVec 8) (c : CipherSel) (f : Block → Block) (s : State) :
    runBlock op c f s = conclude op (if s.keyed c = false then .sequenceError else .ok) (f (slice s.din 0 16)).toList s s := by
  rcases runBlock_cases op c f s with ⟨hk, h⟩ | ⟨hk, h⟩ <;> rw [h, hk] <;> rfl

theorem runEcb_eq_conclude (op : BitVec 8) (c : CipherSel) (f : Block → Block) (len : Nat) (s : State) :
    runEcb op c f len s = conclude op
      (if s.keyed c = false then .sequenceError
       else if len % 16 ≠ 0 ∨ len > 64 then .invalidLengthError else .ok)
      (ecbBuffer f (dinBuffer s len)) s s := by
  have hlen : (len % 16 ≠ 0 ∨ len > 64) ↔ ecbLenOk len = false := by simp [ecbLenOk]; omega
  rcases runEcb_cases op c f len s with ⟨hk, h⟩ | ⟨hk, hl, h⟩ | ⟨hk, hl, h⟩ <;> rw [h, hk]
  · rfl
  · simp only [hlen, hl]; rfl
  · simp only [hlen, hl]; rfl

theorem startEnc_eq_conclude (c : CipherSel) (gen : Bool) (s : State) :
    startEnc c gen s = conclude 0x08 (if s.strm ≠ .idle ∨ s.keyed c = false then .sequenceError else .ok)
      (chosenIv gen s).toList (openEnc c (withIv gen s)) s := by
  rcases startEnc_cases c gen s with ⟨hc, h⟩ | ⟨hs, hk, rfl, h⟩ | ⟨hs, hk, rfl, h⟩ <;> rw [h]
  · rw [if_pos hc]; rfl
  · rw [hs, hk]; rfl
  · rw [hs, hk]; rfl

theorem startDec_eq_conclude (c : CipherSel) (len : Nat) (s : State) :
    startDec c len s = conclude 0x0C
      (if s.strm ≠ .idle ∨ s.keyed c = false then .sequenceError
       else if len > 16 then .invalidLengthError else if len < 16 then .formatError else .ok)
      [] (openDec c s) s := by
  rcases startDec_cases c len s with ⟨hc, h⟩ | ⟨hs, hk, hl, h⟩ | ⟨hs, hk, hl, h⟩ | ⟨hs, hk, rfl, h⟩ <;> rw [h]
  · rw [if_pos hc]; rfl
  · simp [hs, hk, hl, conclude]
  · simp [hs, hk, hl, Nat.lt_asymm hl, conclude]
  · simp [hs, hk, conclude, openDec]

/-- Every command ends by its first error or else with its output and its effect. -/
theorem exec_eq_conclude (i : Instr) (s : State) :
    exec i s = .next (conclude (opOf i) (firstError i s) (outputOf i s) (effect i s) s) := by
  cases i with
  | keyLoadAes len => rw [opOf, encode, opOf_eq]; exact congrArg _ (loadBlockKey_eq_conclude _ _ _ _)
  | keyLoadTf len => rw [opOf, encode, opOf_eq]; exact congrArg _ (loadBlockKey_eq_conclude _ _ _ _)
  | keyLoadSalsa len nlen =>
    rw [opOf, encode, opOf_eq, exec]
    rcases execKeyLoadSalsa_cases len nlen s with ⟨hl, h⟩ | ⟨rfl, rfl, h⟩ <;> rw [h]
    · rw [firstError, if_pos hl]; rfl
    · rfl
  | keyLoadSalsaGen len =>
    rw [opOf, encode, opOf_eq, exec]
    rcases execKeyLoadSalsaGen_cases len s with ⟨hl, h⟩ | ⟨rfl, h⟩ <;> rw [h]
    · rw [firstError, if_pos hl]; rfl
    · rfl
  | blockEncAes => rw [opOf, encode, opOf_eq]; exact congrArg _ (runBlock_eq_conclude _ .aes _ _)
  | blockEncTf => rw [opOf, encode, opOf_eq]; exact congrArg _ (runBlock_eq_conclude _ .tf _ _)
  | blockDecAes => rw [opOf, encode, opOf_eq]; exact congrArg _ (runBlock_eq_conclude _ .aes _ _)
  | blockDecTf => rw [opOf, encode, opOf_eq]; exact congrArg _ (runBlock_eq_conclude _ .tf _ _)
  | salsaProcess =>
    rw [opOf, encode, opOf_eq, exec]
    rcases execSalsaProcess_cases s with ⟨hr, h⟩ | ⟨hr, h⟩ <;> rw [h]
    · simp [firstError, hr, conclude]
    · simp [firstError, hr, conclude, outputOf, effect]
  | ecbEncAes len => rw [opOf, encode, opOf_eq]; exact congrArg _ (runEcb_eq_conclude _ .aes _ _ _)
  | ecbEncTf len => rw [opOf, encode, opOf_eq]; exact congrArg _ (runEcb_eq_conclude _ .tf _ _ _)
  | ecbDecAes len => rw [opOf, encode, opOf_eq]; exact congrArg _ (runEcb_eq_conclude _ .aes _ _ _)
  | ecbDecTf len => rw [opOf, encode, opOf_eq]; exact congrArg _ (runEcb_eq_conclude _ .tf _ _ _)
  | cbcEncStartAes gen => rw [opOf, encode, opOf_eq]; exact congrArg _ (startEnc_eq_conclude .aes _ _)
  | cbcEncStartTf gen => rw [opOf, encode, opOf_eq]; exact congrArg _ (startEnc_eq_conclude .tf _ _)
  | cbcEncUpdate len =>
    rw [opOf, encode, opOf_eq, exec]
    rcases execCbcEncUpdate_cases len s with ⟨hs, h⟩ | ⟨hs, hl, h⟩ | ⟨hs, rfl, h⟩ <;> rw [h]
    · simp [firstError, hs, conclude]
    · simp [firstError, hs, hl, conclude]
    · simp [firstError, hs, conclude, outputOf, effect, nextCipherBlock]
  | cbcEncFinal len =>
    rw [opOf, encode, opOf_eq, exec]
    rcases execCbcEncFinal_cases len s with ⟨hs, h⟩ | ⟨hs, hl, h⟩ | ⟨hs, hl, h⟩ <;> rw [h]
    · simp [firstError, hs, conclude]
    · simp [firstError, hs, hl, conclude]
    · simp [firstError, hs, Nat.not_lt.2 hl, conclude, outputOf, effect]
  | cbcDecStartAes len => rw [opOf, encode, opOf_eq]; exact congrArg _ (startDec_eq_conclude .aes _ _)
  | cbcDecStartTf len => rw [opOf, encode, opOf_eq]; exact congrArg _ (startDec_eq_conclude .tf _ _)
  | cbcDecUpdate len =>
    rw [opOf, encode, opOf_eq, exec]
    rcases execCbcDecUpdate_cases len s with ⟨hs, h⟩ | ⟨hs, hl, h⟩ | ⟨hs, rfl, h⟩ <;> rw [h]
    · simp [firstError, hs, conclude]
    · simp [firstError, hs, hl, conclude]
    · simp [firstError, hs, conclude, outputOf, effect]
  | cbcDecFinal len =>
    rw [opOf, encode, opOf_eq, exec]
    rcases execCbcDecFinal_cases len s with
      ⟨hs, h⟩ | ⟨hs, hl, h⟩ | ⟨hs, hl, hc, h⟩ | ⟨hs, rfl, hv, hp, h⟩ <;> rw [h]
    · simp [firstError, hs, conclude]
    · simp [firstError, hs, hl, conclude]
    · have he : firstError (.cbcDecFinal len) s = .formatError := by
        simp only [firstError, ← padOk_iff]
        rcases hc with h0 | hv | hp
        · simp [hs, hl, Nat.one_le_iff_ne_zero.2 h0]
        · simp [hs, hl, hv]
        · simp [hs, hl, hp]
      rw [he]; rfl
    · have he : firstError (.cbcDecFinal 0) s = .ok := by simp [firstError, ← padOk_iff, hs, hv, hp]
      rw [he]; rfl
  | cbcAbort => rfl
  | zeroize => rfl

/-- What a command can answer: an error raised where it began, or its output over its effect. -/
theorem exec_cases {i : Instr} {s t : State} (h : exec i s = .next t) :
    (firstError i s ≠ .ok ∧ t = raiseError (opOf i) (firstError i s) s) ∨
    (firstError i s = .ok ∧ t = complete (outputOf i s) (effect i s)) := by
  rw [exec_eq_conclude] at h
  cases h
  by_cases he : firstError i s = .ok
  · exact .inr ⟨he, if_pos he⟩
  · exact .inl ⟨he, if_neg he⟩

end Sys2Proof.Machine

/-! ## The result fields -/

namespace Sys2Proof.Machine

open Sys2Proof Sys2Proof.Spec

/-- The result fields as every command leaves them: (h) and the second half of (i) of 10_state.md R44. -/
def State.ResultClean (t : State) : Prop :=
  t.outLen.toNat ≤ 64 ∧ (∀ j : Fin 64, t.outLen.toNat ≤ j.val → t.dout[j] = 0) ∧
  (t.err ≠ .ok → t.outLen = 0 ∧ t.dout = zeros 64)

theorem complete_resultClean {out : List Byte} (u : State) (h : out.length ≤ 64) : (complete out u).ResultClean := by
  have hlen : (complete out u).outLen.toNat = out.length := by
    rw [complete_outLen, BitVec.toNat_ofNat, Nat.mod_eq_of_lt (by omega)]
  refine ⟨by omega, fun j hj => ?_, fun he => absurd (complete_err u out) he⟩
  rw [hlen] at hj
  simp [hj]

theorem raiseError_resultClean (op : BitVec 8) (e : ErrCode) (s : State) : (raiseError op e s).ResultClean :=
  ⟨by simp, fun _ _ => by simp, fun _ => ⟨raiseError_outLen s op e, raiseError_dout s op e⟩⟩

theorem exec_resultClean {i : Instr} {s t : State} (h : exec i s = .next t) : t.ResultClean := by
  obtain ⟨t', ht, hend⟩ := exec_ended i s
  obtain rfl : t' = t := by rw [ht] at h; exact Host.Outcome.next.inj h
  obtain ⟨e, _, rfl⟩ | ⟨out, u, hout, rfl⟩ := hend
  · exact raiseError_resultClean _ _ _
  · exact complete_resultClean u hout

/-- The state with any other contents of the result fields. -/
def State.withResult (d : Bytes 64) (l : BitVec 7) (e : ErrCode) (s : State) : State :=
  { s with dout := d, outLen := l, err := e }

section Result

variable (d : Bytes 64) (l : BitVec 7) (e : ErrCode) (i : Instr) (s : State)

theorem rngBytes_withResult (n : Nat) : rngBytes n (s.withResult d l e) = rngBytes n s := by unfold rngBytes; rfl

theorem chosenIv_withResult (gen : Bool) : chosenIv gen (s.withResult d l e) = chosenIv gen s := by
  cases gen
  · rfl
  · exact rngBytes_withResult d l e s 16

theorem firstError_withResult : firstError i (s.withResult d l e) = firstError i s := by cases i <;> rfl

theorem outputOf_withResult : outputOf i (s.withResult d l e) = outputOf i s := by
  cases i with
  | cbcEncStartAes gen => exact congrArg Vector.toList (chosenIv_withResult d l e s gen)
  | cbcEncStartTf gen => exact congrArg Vector.toList (chosenIv_withResult d l e s gen)
  | _ => rfl

/-- No effect reads the result fields, and `complete` writes all of them. -/
theorem complete_effect_withResult (out : List Byte) :
    complete out (effect i (s.withResult d l e)) = complete out (effect i s) := by
  cases i with
  | keyLoadSalsaGen len => rw [effect, rngBytes_withResult]; rfl
  | cbcEncStartAes gen => rw [effect, withIv, chosenIv_withResult]; rfl
  | cbcEncStartTf gen => rw [effect, withIv, chosenIv_withResult]; rfl
  | _ => rfl

theorem raiseError_withResult (op : BitVec 8) (e' : ErrCode) :
    raiseError op e' (s.withResult d l e) = raiseError op e' s := by unfold raiseError; split <;> rfl

theorem exec_withResult : exec i (s.withResult d l e) = exec i s := by
  simp only [exec_eq_conclude, conclude, firstError_withResult, outputOf_withResult, complete_effect_withResult,
    raiseError_withResult]

end Result

/-- Settles O26: a command's end is clean, and no command reads what the result fields held. -/
theorem everyCommandRewritesDout : Obligations.EveryCommandRewritesDout := by
  intro i s t h
  obtain ⟨hlen, htail, hfail⟩ := exec_resultClean h
  exact ⟨hlen, htail, hfail, fun d l e => (exec_withResult d l e i s).trans h⟩

end Sys2Proof.Machine

/-! ## The writers of the contexts and of the data registers -/

namespace Sys2Proof.Machine

open Sys2Proof Sys2Proof.Spec

/-- The counter's two words are all that moves (43_salsa20.md R178). -/
theorem getElem_counterInc_of_ne (x : Words 16) {j : Nat} (hj : j < 16) (h8 : j ≠ 8) (h9 : j ≠ 9) :
    (counterInc x)[j] = x[j] := by
  simp [counterInc, Vector.getElem_set_ne, h8.symm, h9.symm]

section Effect

variable {i : Instr} (s : State) (hz : i ≠ .zeroize)

include hz

theorem effect_aes (h : ∀ len, i ≠ .keyLoadAes len) :
    (effect i s).aesRk = s.aesRk ∧ (effect i s).aesKeyed = s.aesKeyed := by
  cases i with
  | keyLoadAes len => exact absurd rfl (h len)
  | zeroize => exact absurd rfl hz
  | _ => exact ⟨rfl, rfl⟩

theorem effect_tf (h : ∀ len, i ≠ .keyLoadTf len) :
    (effect i s).tfK = s.tfK ∧ (effect i s).tfS = s.tfS ∧ (effect i s).tfKeyed = s.tfKeyed := by
  cases i with
  | keyLoadTf len => exact absurd rfl (h len)
  | zeroize => exact absurd rfl hz
  | _ => exact ⟨rfl, rfl, rfl⟩

theorem effect_salsa (h : ∀ len nlen, i ≠ .keyLoadSalsa len nlen) (hg : ∀ len, i ≠ .keyLoadSalsaGen len) :
    (effect i s).salsaReady = s.salsaReady ∧ (effect i s).sx = if i = .salsaProcess then counterInc s.sx else s.sx := by
  cases i with
  | keyLoadSalsa len nlen => exact absurd rfl (h len nlen)
  | keyLoadSalsaGen len => exact absurd rfl (hg len)
  | zeroize => exact absurd rfl hz
  | _ => exact ⟨rfl, rfl⟩

theorem effect_key_din : (effect i s).key = s.key ∧ (effect i s).din = s.din := by
  cases i with
  | zeroize => exact absurd rfl hz
  | _ => exact ⟨rfl, rfl⟩

theorem effect_nonce (h : ∀ len, i ≠ .keyLoadSalsaGen len) : (effect i s).nonce = s.nonce := by
  cases i with
  | keyLoadSalsaGen len => exact absurd rfl (h len)
  | zeroize => exact absurd rfl hz
  | _ => rfl

theorem effect_iv (ha : i ≠ .cbcEncStartAes true) (ht : i ≠ .cbcEncStartTf true) : (effect i s).iv = s.iv := by
  cases i with
  | cbcEncStartAes gen => rw [Bool.eq_false_of_not_eq_true (ha <| congrArg _ ·)]; rfl
  | cbcEncStartTf gen => rw [Bool.eq_false_of_not_eq_true (ht <| congrArg _ ·)]; rfl
  | zeroize => exact absurd rfl hz
  | _ => rfl

end Effect

/-- Settles O27: a failure writes no context, and each success only its own. -/
theorem contextsHaveTheirOnlyWriters : Obligations.ContextsHaveTheirOnlyWriters := by
  intro i s t h hz
  obtain ⟨-, rfl⟩ | ⟨-, rfl⟩ := exec_cases h
  · simp
  · refine ⟨effect_aes s hz, effect_tf s hz, fun hl hg => ?_⟩
    obtain ⟨hready, hsx⟩ := effect_salsa s hz hl hg
    refine ⟨hready, fun j h8 h9 => ?_, fun hp => ?_⟩
    · simp only [complete_sx, hsx, Fin.getElem_fin]
      split
      · exact getElem_counterInc_of_ne s.sx j.isLt h8 h9
      · rfl
    · rw [complete_sx, hsx, if_neg hp]

/-- Settles O28: a failure writes no data register, and a success only the one it generates. -/
theorem dataRegistersHaveTheirOnlyWriters : Obligations.DataRegistersHaveTheirOnlyWriters := by
  intro i s t h hz
  obtain ⟨-, rfl⟩ | ⟨-, rfl⟩ := exec_cases h
  · simp
  · obtain ⟨hkey, hdin⟩ := effect_key_din s hz
    exact ⟨hkey, hdin, effect_nonce s hz, effect_iv s hz⟩

end Sys2Proof.Machine

/-! ## The invariants of 10_state.md R44 -/

namespace Sys2Proof.Machine

open Sys2Proof Sys2Proof.Spec

/-- A core at its reset values has the invariants, whatever stands outside it. -/
theorem State.SameCore.inv {s : State} (h : s.SameCore State.reset) : s.Inv := by
  rw [h]
  exact
    { idle := fun _ => ⟨rfl, rfl, rfl, rfl⟩, heldInDec := nofun, encHoldsNothing := nofun, aesUnkeyed := fun _ => rfl
      tfUnkeyed := fun _ => ⟨rfl, rfl⟩, salsaUnready := fun _ => rfl, streamKeyed := fun hs => absurd rfl hs
      outLenBound := Nat.zero_le _, doutTail := fun i _ => Vector.getElem_replicate i.isLt
      failedClean := fun he => absurd rfl he, resetHeld := fun _ => rfl }

theorem clearCore_sameCore (s : State) : (clearCore s).SameCore State.reset := rfl

theorem enterReset_sameCore (s : State) : (enterReset s).SameCore State.reset := rfl

/-- The clause about `rst_n` low says nothing while `rst_n` is high. -/
theorem resetHeld_of_high {s : State} (hr : s.rstN = true) : s.rstN = false → s.SameCore State.reset :=
  fun hl => absurd (hr.symm.trans hl) nofun

section Updates

variable {s : State}

/-- The inputs and the bus stand outside the core. -/
theorem State.SameCore.withOutside {t : State} (h : s.SameCore t) (l : List Input) (b : BusResponse) :
    State.SameCore { s with inputs := l, bus := b } t := by
  have heq := congrArg (fun u : State => { u with inputs := l, bus := b }) h
  exact heq

theorem State.Inv.withOutside (hs : s.Inv) (l : List Input) (b : BusResponse) :
    State.Inv { s with inputs := l, bus := b } :=
  { hs with resetHeld := fun hl => (hs.resetHeld hl).withOutside l b }

theorem State.Inv.respond (hs : s.Inv) (b : BusResponse) : (respond b s).Inv := hs.withOutside _ b

/-- Loading a key schedule leaves the ciphers keyed that were. -/
theorem keyed_loadAes {c : CipherSel} (h : s.keyed c = true) : (loadAes s).keyed c = true := by
  cases c
  · rfl
  · exact h

theorem keyed_loadTf {c : CipherSel} (h : s.keyed c = true) : (loadTf s).keyed c = true := by
  cases c
  · exact h
  · rfl

variable (hs : s.Inv) (hr : s.rstN = true)

include hs hr

/-- No invariant of a running core speaks of the registers the host writes or of the count of draws. -/
theorem State.Inv.withData (k : Bytes 32) (n : Bytes 8) (v : Bytes 16) (d : Bytes 64) (r : Nat) :
    State.Inv { s with key := k, nonce := n, iv := v, din := d, rngDrawn := r } :=
  { hs with resetHeld := resetHeld_of_high hr }

theorem State.Inv.withIv (gen : Bool) : (withIv gen s).Inv := hs.withData hr _ _ _ _ _

theorem State.Inv.loadAes : (loadAes s).Inv :=
  { hs with
    aesUnkeyed := nofun
    streamKeyed := fun ho => keyed_loadAes (hs.streamKeyed ho)
    resetHeld := resetHeld_of_high hr }

theorem State.Inv.loadTf : (loadTf s).Inv :=
  { hs with
    tfUnkeyed := nofun
    streamKeyed := fun ho => keyed_loadTf (hs.streamKeyed ho)
    resetHeld := resetHeld_of_high hr }

theorem State.Inv.loadSalsa (N : Bytes 8) : (loadSalsa N s).Inv :=
  { hs with salsaUnready := nofun, resetHeld := resetHeld_of_high hr }

theorem State.Inv.withSx (x : Words 16) (h : s.salsaReady = true) : State.Inv { s with sx := x } :=
  { hs with salsaUnready := fun hn => absurd (h.symm.trans hn) nofun, resetHeld := resetHeld_of_high hr }

/-- A closed mode context, `held` zero and not valid. -/
theorem State.Inv.closeStream : (closeStream s).Inv :=
  { hs with
    idle := fun _ => ⟨rfl, rfl, rfl, rfl⟩
    heldInDec := nofun
    encHoldsNothing := nofun
    streamKeyed := fun ho => absurd rfl ho
    resetHeld := resetHeld_of_high hr }

/-- An encryption stream holds no block, so closing it need not clear one (44_modes.md R200). -/
theorem State.Inv.closeEnc (h : s.strm = .enc) : State.Inv { s with strm := .idle, strmSel := .aes, chain := zeros 16 } := by
  obtain ⟨hheld, hvalid⟩ := hs.encHoldsNothing h
  exact
    { hs with
      idle := fun _ => ⟨rfl, rfl, hheld, hvalid⟩
      heldInDec := fun hv => absurd (hvalid.symm.trans hv) nofun
      encHoldsNothing := nofun
      streamKeyed := fun ho => absurd rfl ho
      resetHeld := resetHeld_of_high hr }

/-- With no stream open nothing is held, so an encryption stream begins with nothing held. -/
theorem State.Inv.openEnc {c : CipherSel} (h : s.strm = .idle) (hk : s.keyed c = true) : (openEnc c s).Inv := by
  obtain ⟨-, -, hheld, hvalid⟩ := hs.idle h
  exact
    { hs with
      idle := nofun
      heldInDec := fun hv => absurd (hvalid.symm.trans hv) nofun
      encHoldsNothing := fun _ => ⟨hheld, hvalid⟩
      streamKeyed := fun _ => hk
      resetHeld := resetHeld_of_high hr }

theorem State.Inv.openDec {c : CipherSel} (hk : s.keyed c = true) : (openDec c s).Inv :=
  { hs with
    idle := nofun
    heldInDec := nofun
    encHoldsNothing := nofun
    streamKeyed := fun _ => hk
    resetHeld := resetHeld_of_high hr }

/-- An open stream may chain to any block. -/
theorem State.Inv.withChain (b : Block) (h : s.strm = .enc) : State.Inv { s with chain := b } :=
  { hs with idle := fun hi => absurd (h.symm.trans hi) nofun, resetHeld := resetHeld_of_high hr }

/-- A decryption stream may hold any block. -/
theorem State.Inv.holdBlock (b p : Block) (h : s.strm = .dec) :
    State.Inv { s with chain := b, held := p, heldValid := true } :=
  { hs with
    idle := fun hi => absurd (h.symm.trans hi) nofun
    heldInDec := fun _ => h
    encHoldsNothing := fun he => absurd (h.symm.trans he) nofun
    resetHeld := resetHeld_of_high hr }

/-- The invariants of the contexts go with clean result fields. -/
theorem State.Inv.complete {out : List Byte} (h : (complete out s).ResultClean) : (complete out s).Inv := by
  obtain ⟨hlen, htail, hfail⟩ := h
  exact { hs with outLenBound := hlen, doutTail := htail, failedClean := hfail, resetHeld := resetHeld_of_high hr }

theorem State.Inv.recordError (e : ErrCode) : (recordError e s).Inv :=
  { hs with
    outLenBound := Nat.zero_le _
    doutTail := fun i _ => Vector.getElem_replicate i.isLt
    failedClean := fun _ => ⟨rfl, rfl⟩
    resetHeld := resetHeld_of_high hr }

theorem State.Inv.raiseError (op : BitVec 8) (e : ErrCode) : (raiseError op e s).Inv := by
  unfold Machine.raiseError
  split
  · exact (hs.recordError hr e).closeStream hr
  · exact hs.recordError hr e

end Updates

/-- What a successful command writes beside the result fields keeps the invariants; that it succeeds says which stream is
open, and that the cipher it opens one for is keyed. -/
theorem effect_inv {i : Instr} {s : State} (hs : s.Inv) (hr : s.rstN = true) (h : firstError i s = .ok) :
    (effect i s).Inv := by
  cases i with
  | keyLoadAes len => exact hs.loadAes hr
  | keyLoadTf len => exact hs.loadTf hr
  | keyLoadSalsa len nlen => exact hs.loadSalsa hr _
  | keyLoadSalsaGen len =>
    have hdrawn : State.Inv { afterDraw 8 s with nonce := rngBytes 8 s } := hs.withData hr _ _ _ _ _
    exact hdrawn.loadSalsa hr _
  | salsaProcess => exact hs.withSx hr _ (by simpa [firstError] using h)
  | cbcEncStartAes gen =>
    obtain ⟨hi, hk⟩ : s.strm = .idle ∧ s.aesKeyed = true := by simpa [firstError] using h
    exact (hs.withIv hr gen).openEnc (c := .aes) hr hi hk
  | cbcEncStartTf gen =>
    obtain ⟨hi, hk⟩ : s.strm = .idle ∧ s.tfKeyed = true := by simpa [firstError] using h
    exact (hs.withIv hr gen).openEnc (c := .tf) hr hi hk
  | cbcEncUpdate len =>
    have ho : s.strm = .enc := by by_contra ho; simp [firstError, ho] at h
    exact hs.withChain hr _ ho
  | cbcEncFinal len =>
    have ho : s.strm = .enc := by by_contra ho; simp [firstError, ho] at h
    exact hs.closeEnc hr ho
  | cbcDecStartAes len =>
    have hk : s.aesKeyed = true := by by_contra hk; simp [firstError, Bool.eq_false_of_not_eq_true hk] at h
    exact hs.openDec (c := .aes) hr hk
  | cbcDecStartTf len =>
    have hk : s.tfKeyed = true := by by_contra hk; simp [firstError, Bool.eq_false_of_not_eq_true hk] at h
    exact hs.openDec (c := .tf) hr hk
  | cbcDecUpdate len =>
    have ho : s.strm = .dec := by by_contra ho; simp [firstError, ho] at h
    exact hs.holdBlock hr _ _ ho
  | cbcDecFinal len => exact hs.closeStream hr
  | cbcAbort => exact hs.closeStream hr
  | zeroize => exact (clearCore_sameCore s).inv
  | _ => exact hs

theorem effect_rstN (i : Instr) (s : State) : (effect i s).rstN = s.rstN := by cases i <;> rfl

section Serve

variable {s t : State} (hs : s.Inv) (hr : s.rstN = true)

include hs hr

theorem exec_inv {i : Instr} (h : exec i s = .next t) : t.Inv := by
  have hclean := exec_resultClean h
  obtain ⟨-, rfl⟩ | ⟨hok, rfl⟩ := exec_cases h
  · exact hs.raiseError hr _ _
  · exact (effect_inv hs hr hok).complete ((effect_rstN i s).trans hr) hclean

theorem executeWord_inv {w : Word} (h : executeWord w s = .next t) : t.Inv := by
  unfold executeWord at h
  split at h
  · exact exec_inv hs hr h
  · cases h
    exact hs.raiseError hr _ _

theorem writeReg_inv {v : Word} {r : Reg} (h : writeReg v s r = .next t) : t.Inv := by
  cases r with
  | cmd => exact executeWord_inv hs hr h
  | key k => cases h; exact hs.withData hr _ _ _ _ _
  | nonce k => cases h; exact hs.withData hr _ _ _ _ _
  | iv k => cases h; exact hs.withData hr _ _ _ _ _
  | din k => cases h; exact hs.withData hr _ _ _ _ _
  | _ => cases h; exact hs

end Serve

theorem respondTo_cases {b : BusResponse} {r : Result} {t : State} (h : respondTo b r = .next t) :
    ∃ u, r = .next u ∧ t = respond b u := by
  cases r with
  | next u => cases h; exact ⟨u, rfl, rfl⟩
  | fault f => cases h
  | refused q => cases h

theorem serveAccess_inv {a : Access} {s t : State} (hs : s.Inv) (hr : s.rstN = true)
    (h : serveAccess a s = .next t) : t.Inv := by
  cases a with
  | read off width => cases h; exact hs.respond _
  | write off width v =>
    rw [serveAccess] at h
    split at h
    · obtain ⟨u, hu, rfl⟩ := respondTo_cases h
      exact (writeReg_inv hs hr hu).respond _
    · cases h
      exact hs.respond _

theorem leaveReset_inv {s : State} (hs : s.Inv) : (leaveReset s).Inv := by
  unfold leaveReset
  split
  · exact hs
  · exact State.SameCore.inv rfl

/-- Any input keeps the invariants; an access is served only while `rst_n` is high (70_reset_and_hazards.md R250). -/
theorem serveInput_inv {i : Input} {s t : State} (hs : s.Inv) (hr : ∀ a, i = .access a → s.rstN = true)
    (h : serveInput i s = .next t) : t.Inv := by
  cases i with
  | access a => exact serveAccess_inv hs (hr a rfl) h
  | resetLow => cases h; exact (enterReset_sameCore s).inv
  | resetDuring a => cases h; exact (enterReset_sameCore s).inv
  | resetHigh => cases h; exact leaveReset_inv hs

/-- The core takes an access only while `rst_n` is high. -/
theorem rstN_of_nextInput_access {s : State} {a : Access} {rest : List Input}
    (h : nextInput s = some (.access a, rest)) : s.rstN = true := by
  by_contra hr
  rw [nextInput, if_neg hr] at h
  exact nextEdge_ne_access h a rfl

theorem step_inv {s t : State} (hs : s.Inv) (h : step s = .next t) : t.Inv := by
  cases hn : nextInput s with
  | none =>
    simp only [step, hn] at h
    cases h
    exact hs
  | some p =>
    obtain ⟨i, rest⟩ := p
    rw [step_of_nextInput hn] at h
    have hr : ∀ a, i = .access a → s.rstN = true := by
      rintro a rfl
      exact rstN_of_nextInput_access hn
    exact serveInput_inv (hs.withOutside rest s.bus) hr h

theorem run_inv {n : Nat} {s t : State} (hs : s.Inv) (h : Host.Core.run Sys2Proof.core n s = .next t) : t.Inv := by
  induction n generalizing s with
  | zero => cases h; exact hs
  | succ n ih =>
    simp only [Host.Core.run] at h
    split at h
    · next s' hstep => exact ih (step_inv hs hstep) h
    · cases h
    · cases h

/-- Settles O20: the reset state is a core at its reset values. -/
theorem resetSatisfiesTheInvariants : Obligations.ResetSatisfiesTheInvariants := State.SameCore.inv rfl

/-- Settles O21, by cases on the input that the step takes and, for a write to CMD, on the command's end. -/
theorem stepKeepsTheInvariants : Obligations.StepKeepsTheInvariants := fun _ _ => step_inv

/-- Settles O22, by induction on the number of steps. -/
theorem invariantsHoldOnEveryRun : Obligations.InvariantsHoldOnEveryRun := by
  intro n inputs t h
  have hreset : State.Inv { State.reset with inputs := inputs } := State.SameCore.inv rfl
  exact run_inv hreset h

end Sys2Proof.Machine

/-! ## STATUS -/

namespace Sys2Proof.Machine

open Sys2Proof

/-- The fields of STATUS that are wider than a bit: extracting one skips the parts of the append below it and cuts off those
above. -/
theorem status_wide (s : State) :
    s.status.extractLsb' 0 4 = s.err.code ∧ s.status.extractLsb' 4 4 = 0 ∧ s.status.extractLsb' 12 2 = s.strm.code ∧
    s.status.extractLsb' 16 7 = s.outLen ∧ s.status.extractLsb' 23 9 = 0 := by
  refine ⟨?_, ?_, ?_, ?_, ?_⟩ <;> (simp only [State.status, BitVec.extractLsb'_append_eq_ite]; simp)

theorem CipherSel.getLsbD_code (c : CipherSel) : c.code.getLsbD 0 = (c == .tf) := by cases c <;> rfl

/-- The fields of STATUS that are one bit. -/
theorem status_bits (s : State) :
    s.status.getLsbD 8 = s.aesKeyed ∧ s.status.getLsbD 9 = s.tfKeyed ∧ s.status.getLsbD 10 = s.salsaReady ∧
    s.status.getLsbD 11 = false ∧ s.status.getLsbD 14 = (s.strmSel == .tf) ∧ s.status.getLsbD 15 = s.heldValid := by
  rw [← CipherSel.getLsbD_code]
  refine ⟨?_, ?_, ?_, ?_, ?_, ?_⟩ <;> (simp only [State.status, BitVec.getLsbD_append]; simp)

/-- Settles O9, with the numbers of ERR and STREAM read case by case. -/
theorem statusFields : Obligations.StatusFields := by
  intro s
  obtain ⟨herr, hlow, hstrm, hlen, hhigh⟩ := status_wide s
  obtain ⟨haes, htf, hsalsa, h11, hsel, hheld⟩ := status_bits s
  refine ⟨?_, hlow, haes, htf, hsalsa, h11, ?_, hsel, hheld, hlen, hhigh⟩
  · rw [herr]
    cases s.err <;> rfl
  · rw [hstrm]
    cases s.strm <;> rfl

end Sys2Proof.Machine

/-! ## The register window -/

namespace Sys2Proof.Machine

open Sys2Proof Sys2Proof.Spec

section RegisterMap

/-! The register map (20_memory.md R51), one row to a lemma. -/

variable {off : BitVec 12}

theorem regAt_cmd (h : off.toNat = 0x000) : regAt off = .cmd := by simp [regAt, h]

theorem regAt_status (h : off.toNat = 0x004) : regAt off = .status := by simp [regAt, h]

theorem regAt_sctr0 (h : off.toNat = 0x038) : regAt off = .sctr0 := by simp [regAt, h]

theorem regAt_sctr1 (h : off.toNat = 0x03C) : regAt off = .sctr1 := by simp [regAt, h]

theorem regAt_reserved
    (h : (0x008 ≤ off.toNat ∧ off.toNat ≤ 0x00C) ∨ (0x050 ≤ off.toNat ∧ off.toNat ≤ 0x07C) ∨ 0x100 ≤ off.toNat) :
    regAt off = .reserved := by
  obtain h | h | h := h <;> simp (disch := omega) only [regAt, if_neg, if_pos]

/-- A word's number, as the map computes it from the word's offset. -/
theorem ofNat_word {n base k : Nat} [NeZero n] (hk : k < n) (h : off.toNat = base + 4 * k) :
    Fin.ofNat n ((off.toNat - base) / 4) = ⟨k, hk⟩ := by
  have hdiv : (off.toNat - base) / 4 = k := by omega
  rw [hdiv]
  exact Fin.ext (Nat.mod_eq_of_lt hk)

theorem regAt_key {k : Nat} (hk : k < 8) (h : off.toNat = 0x010 + 4 * k) : regAt off = .key ⟨k, hk⟩ := by
  simp (disch := omega) only [regAt, if_neg, if_pos, ofNat_word hk h]

theorem regAt_nonce {k : Nat} (hk : k < 2) (h : off.toNat = 0x030 + 4 * k) : regAt off = .nonce ⟨k, hk⟩ := by
  simp (disch := omega) only [regAt, if_neg, if_pos, ofNat_word hk h]

theorem regAt_iv {k : Nat} (hk : k < 4) (h : off.toNat = 0x040 + 4 * k) : regAt off = .iv ⟨k, hk⟩ := by
  simp (disch := omega) only [regAt, if_neg, if_pos, ofNat_word hk h]

theorem regAt_din {k : Nat} (hk : k < 16) (h : off.toNat = 0x080 + 4 * k) : regAt off = .din ⟨k, hk⟩ := by
  simp (disch := omega) only [regAt, if_neg, if_pos, ofNat_word hk h]

theorem regAt_dout {k : Nat} (hk : k < 16) (h : off.toNat = 0x0C0 + 4 * k) : regAt off = .dout ⟨k, hk⟩ := by
  simp (disch := omega) only [regAt, if_neg, if_pos, ofNat_word hk h]

end RegisterMap

theorem readReg_withInputs (s : State) (l : List Input) (r : Reg) : readReg { s with inputs := l } r = readReg s r := by
  cases r <;> rfl

/-- The step that serves an aligned read: the register's word on the bus, and nothing else. -/
theorem step_of_read {s : State} {rest : List Input} {off : BitVec 12} (ha : off.toNat % 4 = 0)
    (h : ServesNext (.read off 4) rest s) :
    step s = .next { s with inputs := rest, bus := .readOkay (readReg s (regAt off)) } := by
  obtain ⟨hr, hi⟩ := h
  rw [step_of_input hr hi, serveInput, serveAccess_read ha, readReg_withInputs]
  rfl

/-- The step that serves an aligned write: the register's own write, acknowledged. -/
theorem step_of_write {s : State} {rest : List Input} {off : BitVec 12} {v : Word} (ha : off.toNat % 4 = 0)
    (h : ServesNext (.write off 4 v) rest s) :
    step s = respondTo .writeOkay (writeReg v { s with inputs := rest } (regAt off)) := by
  obtain ⟨hr, hi⟩ := h
  rw [step_of_input hr hi, serveInput, serveAccess_write v ha]

/-- The bytes of a word read are the register's (20_memory.md R52). -/
theorem laneRead_le32 {n : Nat} (r : Bytes n) (k : Nat) : LaneRead r k (le32 r (4 * k)) := by
  intro i hi
  obtain ⟨h0, h1, h2, h3⟩ :=
    wordByte_wordOf (byteAt r (4 * k)) (byteAt r (4 * k + 1)) (byteAt r (4 * k + 2)) (byteAt r (4 * k + 3))
  match i, hi with
  | 0, _ => exact h0
  | 1, _ => exact h1
  | 2, _ => exact h2
  | 3, _ => exact h3

/-- The bytes of a word written are the value's (20_memory.md R52). -/
theorem laneWritten_writeLane {n : Nat} (r : Bytes n) (k : Nat) (v : Word) : LaneWritten r (writeLane r k v) k v :=
  fun _ hj => getElem_writeLane r v hj

/-- Settles O8, with the value read off the map, row by row. -/
theorem readsFollowTheRegisterMap : Obligations.ReadsFollowTheRegisterMap := by
  intro s rest off ha hs
  refine ⟨readReg s (regAt off), step_of_read ha hs, fun h => ?cmd, fun h => ?status, fun h => ?reserved1,
    fun k hk h => ?key, fun k hk h => ?nonce, fun h => ?sctr0, fun h => ?sctr1, fun k hk h => ?iv,
    fun h => ?reserved2, fun k hk h => ?din, fun k hk h => ?dout, fun h => ?reserved3⟩
  case cmd => rw [regAt_cmd h]; rfl
  case status => rw [regAt_status h]; rfl
  case reserved1 => rw [regAt_reserved (.inl h)]; rfl
  case key => rw [regAt_key hk h]; rfl
  case nonce => rw [regAt_nonce hk h]; exact laneRead_le32 s.nonce k
  case sctr0 => rw [regAt_sctr0 h]; rfl
  case sctr1 => rw [regAt_sctr1 h]; rfl
  case iv => rw [regAt_iv hk h]; exact laneRead_le32 s.iv k
  case reserved2 => rw [regAt_reserved (.inr (.inl h))]; rfl
  case din => rw [regAt_din hk h]; exact laneRead_le32 s.din k
  case dout => rw [regAt_dout hk h]; exact laneRead_le32 s.dout k
  case reserved3 => rw [regAt_reserved (.inr (.inr h))]; rfl

/-- Settles O10: each word's offset is aligned, and the map gives it to its register. -/
theorem dataRegisterWritesStoreFourBytes : Obligations.DataRegisterWritesStoreFourBytes := by
  intro s rest off v hs
  refine ⟨fun k hk h => ?key, fun k hk h => ?nonce, fun k hk h => ?iv, fun k hk h => ?din⟩ <;>
    rw [step_of_write (by omega) hs]
  case key => rw [regAt_key hk h]; exact ⟨_, rfl, laneWritten_writeLane s.key k v, rfl⟩
  case nonce => rw [regAt_nonce hk h]; exact ⟨_, rfl, laneWritten_writeLane s.nonce k v, rfl⟩
  case iv => rw [regAt_iv hk h]; exact ⟨_, rfl, laneWritten_writeLane s.iv k v, rfl⟩
  case din => rw [regAt_din hk h]; exact ⟨_, rfl, laneWritten_writeLane s.din k v, rfl⟩

/-- The registers that the map marks read-only or reserved (20_memory.md R51). -/
def Reg.IgnoresWrites : Reg → Prop
  | .status | .sctr0 | .sctr1 | .dout _ | .reserved => True
  | .cmd | .key _ | .nonce _ | .iv _ | .din _ => False

theorem writeReg_of_ignoresWrites {r : Reg} (h : r.IgnoresWrites) (v : Word) (s : State) : writeReg v s r = .next s := by
  cases r with
  | status | sctr0 | sctr1 | dout | reserved => rfl
  | cmd | key | nonce | iv | din => exact h.elim

/-- The aligned offsets of those registers. -/
theorem regAt_ignoresWrites {off : BitVec 12} (ha : off.toNat % 4 = 0)
    (h : (0x004 ≤ off.toNat ∧ off.toNat ≤ 0x00C) ∨ (0x038 ≤ off.toNat ∧ off.toNat ≤ 0x03C) ∨
      (0x050 ≤ off.toNat ∧ off.toNat ≤ 0x07C) ∨ 0x0C0 ≤ off.toNat) :
    (regAt off).IgnoresWrites := by
  have hrow : off.toNat = 0x004 ∨ off.toNat = 0x038 ∨ off.toNat = 0x03C ∨
      (∃ k, k < 16 ∧ off.toNat = 0x0C0 + 4 * k) ∨
      ((0x008 ≤ off.toNat ∧ off.toNat ≤ 0x00C) ∨ (0x050 ≤ off.toNat ∧ off.toNat ≤ 0x07C) ∨ 0x100 ≤ off.toNat) := by
    by_cases hd : 0x0C0 ≤ off.toNat ∧ off.toNat < 0x100
    · exact .inr (.inr (.inr (.inl ⟨(off.toNat - 0x0C0) / 4, by omega, by omega⟩)))
    · omega
  obtain h | h | h | ⟨k, hk, h⟩ | h := hrow
  · rw [regAt_status h]; trivial
  · rw [regAt_sctr0 h]; trivial
  · rw [regAt_sctr1 h]; trivial
  · rw [regAt_dout hk h]; trivial
  · rw [regAt_reserved h]; trivial

/-- Settles O11: the map gives every such offset to a register that ignores writes. -/
theorem readOnlyAndReservedWritesAreIgnored : Obligations.ReadOnlyAndReservedWritesAreIgnored := by
  intro s rest off v ha hs h
  rw [step_of_write ha hs, writeReg_of_ignoresWrites (regAt_ignoresWrites ha h)]
  rfl

end Sys2Proof.Machine

/-! ## The random source and the fields outside the core -/

namespace Sys2Proof.Machine

open Sys2Proof

/-- The bytes a successful command draws (20_memory.md R63). -/
def drawCount : Instr → Nat
  | .keyLoadSalsaGen _ => 8
  | .cbcEncStartAes true => 16
  | .cbcEncStartTf true => 16
  | _ => 0

theorem effect_rngDrawn (i : Instr) (s : State) : (effect i s).rngDrawn = s.rngDrawn + drawCount i := by
  cases i with
  | cbcEncStartAes gen => cases gen <;> rfl
  | cbcEncStartTf gen => cases gen <;> rfl
  | _ => rfl

/-- No command touches what stands outside the core, the draws apart. -/
theorem effect_outside (i : Instr) (s : State) :
    (effect i s).inputs = s.inputs ∧ (effect i s).bus = s.bus ∧ (effect i s).rstN = s.rstN ∧
    (effect i s).resets = s.resets := by
  cases i <;> exact ⟨rfl, rfl, rfl, rfl⟩

/-- Settles O29: a failure draws nothing, and a success what its effect draws. -/
theorem onlyGeneratingCommandsDraw : Obligations.OnlyGeneratingCommandsDraw := by
  intro i s t h
  obtain ⟨herr, rfl⟩ | ⟨-, rfl⟩ := exec_cases h
  · simp [herr]
  · refine ⟨?_, effect_outside i s⟩
    rw [complete_rngDrawn, effect_rngDrawn, complete_err, if_neg (not_not_intro rfl)]
    rfl

end Sys2Proof.Machine

/-! ## The place of the window -/

namespace Sys2Proof.Machine

open Sys2Proof

theorem windowOffset_inside (base : Nat) (off : BitVec 12) : windowOffset base (base + off.toNat) = some off := by
  have hin : base ≤ base + off.toNat ∧ base + off.toNat < base + 4096 := by omega
  rw [windowOffset, if_pos hin, Nat.add_sub_cancel_left, BitVec.ofNat_toNat, BitVec.setWidth_eq]

theorem windowOffset_outside {base a : Nat} (h : a < base ∨ base + 4096 ≤ a) : windowOffset base a = none :=
  if_neg (by omega)

/-- Settles O13, for a window placed anywhere. -/
theorem hostAddressesReachTheWindow : Obligations.HostAddressesReachTheWindow := by
  refine ⟨fun off v => ?_, fun a v h => ?_⟩
  · simp [memWrite, memRead, windowOffset_inside]
  · simp [memWrite, memRead, windowOffset_outside h]

end Sys2Proof.Machine

/-! ## The command word -/

namespace Sys2Proof

section Decoder

/-! What each part of the decoder accepts. -/

theorem sel_cases (sel : BitVec 2) : sel = 0 ∨ sel = 1 ∨ sel = 2 ∨ sel = 3 := by
  revert sel
  decide

theorem gen_cases (gen : BitVec 1) : gen = 0 ∨ gen = 1 := by
  revert gen
  decide

theorem ofBool_gen (gen : BitVec 1) : BitVec.ofBool (gen == 1#1) = gen := by
  obtain rfl | rfl := gen_cases gen <;> rfl

variable {sel want : BitVec 2} {unused : Bool} {r : Except DecodeReject Instr} {i j aes tf : Instr}

@[simp] theorem ifUnused_eq_ok : ifUnused unused r = .ok i ↔ unused = true ∧ r = .ok i := by
  cases r <;> cases unused <;> simp [ifUnused]

@[simp] theorem onlySel_eq_ok : onlySel sel want j = .ok i ↔ sel = want ∧ j = i := by
  by_cases h : sel = want <;> simp [onlySel, h]

@[simp] theorem bySel_eq_ok : bySel sel aes tf = .ok i ↔ sel = 0 ∧ aes = i ∨ sel = 1 ∧ tf = i := by
  obtain rfl | rfl | rfl | rfl := sel_cases sel <;> simp [bySel]

@[simp] theorem decodeKeyLoad_eq_ok {f : Fields} : decodeKeyLoad f = .ok i ↔
    f.sel = 0 ∧ f.gen = 0 ∧ f.nlen = 0 ∧ .keyLoadAes f.len.toNat = i ∨
    f.sel = 1 ∧ f.gen = 0 ∧ f.nlen = 0 ∧ .keyLoadTf f.len.toNat = i ∨
    f.sel = 2 ∧ f.gen = 0 ∧ .keyLoadSalsa f.len.toNat f.nlen.toNat = i ∨
    f.sel = 2 ∧ f.gen = 1 ∧ f.nlen = 0 ∧ .keyLoadSalsaGen f.len.toNat = i := by
  obtain hs | hs | hs | hs := sel_cases f.sel <;> obtain hg | hg := gen_cases f.gen <;>
    simp [decodeKeyLoad, hs, hg]

end Decoder

theorem toNat_ofNat_of_countFits {n : Nat} (h : countFits n = true) : (BitVec.ofNat 7 n).toNat = n :=
  Nat.mod_eq_of_lt (of_decide_eq_true h)

theorem countFits_toNat (l : BitVec 7) : countFits l.toNat = true := decide_eq_true l.isLt

/-- The decoder reads a command word by its fields alone: no reserved bit is set (30_encoding.md R70, R76). -/
theorem decode_commandWord (op : BitVec 8) (sel : BitVec 2) (gen : BitVec 1) (len nlen : Nat) :
    decode (commandWord op sel gen len nlen) = decodeFields
      { op := op, sel := sel, gen := gen, rsvA := 0, len := BitVec.ofNat 7 len,
        rsvB := 0, nlen := BitVec.ofNat 7 nlen, rsvC := 0 } := by
  simp [decode, fields_commandWord]

theorem decode_encode {i : Instr} (h : i.wellFormed = true) : decode (encode i) = .ok i := by
  cases i with
  | keyLoadSalsa len nlen =>
    obtain ⟨hl, hn⟩ := Bool.and_eq_true_iff.1 h
    simp [encode, decode_commandWord, decodeFields, toNat_ofNat_of_countFits hl, toNat_ofNat_of_countFits hn]
  | cbcEncStartAes gen | cbcEncStartTf gen => cases gen <;> simp [encode, decode_commandWord, decodeFields]
  | blockEncAes | blockEncTf | blockDecAes | blockDecTf | salsaProcess | cbcAbort | zeroize =>
    simp [encode, decode_commandWord, decodeFields]
  | keyLoadAes len | keyLoadTf len | keyLoadSalsaGen len | ecbEncAes len | ecbEncTf len | ecbDecAes len
  | ecbDecTf len | cbcEncUpdate len | cbcEncFinal len | cbcDecStartAes len | cbcDecStartTf len
  | cbcDecUpdate len | cbcDecFinal len =>
    simp [encode, decode_commandWord, decodeFields, toNat_ofNat_of_countFits h]

/-- Settles O1: packing loses no operand that fits its field, and the opcode map names the command. -/
theorem decodeUndoesEncode : Obligations.DecodeUndoesEncode := fun _ => decode_encode

theorem decode_eq_ok {w : Word} {i : Instr} : decode w = .ok i ↔
    (fields w).rsvA = 0 ∧ (fields w).rsvB = 0 ∧ (fields w).rsvC = 0 ∧ decodeFields (fields w) = .ok i := by
  simp only [decode]
  split
  · next h => simp [h]
  · next h => simp only [reduceCtorEq, false_iff]; tauto

/-- What the opcode map reads is well formed and encodes to the same fields (30_encoding.md R74, R78). -/
theorem encode_of_decodeFields {f : Fields} {i : Instr} (hA : f.rsvA = 0) (hB : f.rsvB = 0) (hC : f.rsvC = 0)
    (h : decodeFields f = .ok i) : i.wellFormed = true ∧ encode i = f.word := by
  obtain ⟨op, sel, gen, rsvA, len, rsvB, nlen, rsvC⟩ := f
  obtain ⟨rfl, rfl, rfl⟩ : rsvA = 0 ∧ rsvB = 0 ∧ rsvC = 0 := ⟨hA, hB, hC⟩
  have hop (n : Nat) (hn : op.toNat = n) : op = BitVec.ofNat 8 n := by
    rw [← hn, BitVec.ofNat_toNat, BitVec.setWidth_eq]
  simp only [decodeFields] at h
  split at h
  case h_15 => cases h
  all_goals
    rename_i hn
    obtain rfl := hop _ hn
    simp only [ifUnused_eq_ok, onlySel_eq_ok, bySel_eq_ok, decodeKeyLoad_eq_ok, Bool.and_eq_true, beq_iff_eq] at h
  -- KEY_LOAD
  case h_1 =>
    obtain ⟨rfl, rfl, rfl, rfl⟩ | ⟨rfl, rfl, rfl, rfl⟩ | ⟨rfl, rfl, rfl⟩ | ⟨rfl, rfl, rfl, rfl⟩ := h <;>
      simp [encode, commandWord, Instr.wellFormed, countFits_toNat]
  -- BLOCK_ENC, BLOCK_DEC
  case h_2 | h_3 =>
    obtain ⟨⟨⟨rfl, rfl⟩, rfl⟩, ⟨rfl, rfl⟩ | ⟨rfl, rfl⟩⟩ := h <;>
      simp [encode, commandWord, Instr.wellFormed]
  -- SALSA_PROCESS, CBC_ABORT, ZEROIZE
  case h_4 | h_13 | h_14 =>
    obtain ⟨⟨⟨rfl, rfl⟩, rfl⟩, rfl, rfl⟩ := h
    simp [encode, commandWord, Instr.wellFormed]
  -- ECB_ENC, ECB_DEC, CBC_DEC_START
  case h_5 | h_6 | h_10 =>
    obtain ⟨⟨rfl, rfl⟩, ⟨rfl, rfl⟩ | ⟨rfl, rfl⟩⟩ := h <;>
      simp [encode, commandWord, Instr.wellFormed, countFits_toNat]
  -- CBC_ENC_START
  case h_7 =>
    obtain ⟨⟨rfl, rfl⟩, ⟨rfl, rfl⟩ | ⟨rfl, rfl⟩⟩ := h <;>
      simp [encode, commandWord, Instr.wellFormed, ofBool_gen]
  -- CBC_ENC_UPDATE, CBC_ENC_FINAL, CBC_DEC_UPDATE, CBC_DEC_FINAL
  case h_8 | h_9 | h_11 | h_12 =>
    obtain ⟨⟨rfl, rfl⟩, rfl, rfl⟩ := h
    simp [encode, commandWord, Instr.wellFormed, countFits_toNat]

theorem encode_of_decode {w : Word} {i : Instr} (h : decode w = .ok i) : i.wellFormed = true ∧ encode i = w := by
  obtain ⟨hA, hB, hC, hf⟩ := decode_eq_ok.1 h
  obtain ⟨hwf, he⟩ := encode_of_decodeFields hA hB hC hf
  exact ⟨hwf, he.trans (word_fields w)⟩

/-- Settles O2: every field that the decoder drops is one the opcode map requires to be 0. -/
theorem encodeUndoesDecode : Obligations.EncodeUndoesDecode := fun _ _ => encode_of_decode

theorem fields_and (a b : Word) : fields (a &&& b) =
    { op := (fields a).op &&& (fields b).op, sel := (fields a).sel &&& (fields b).sel,
      gen := (fields a).gen &&& (fields b).gen, rsvA := (fields a).rsvA &&& (fields b).rsvA,
      len := (fields a).len &&& (fields b).len, rsvB := (fields a).rsvB &&& (fields b).rsvB,
      nlen := (fields a).nlen &&& (fields b).nlen, rsvC := (fields a).rsvC &&& (fields b).rsvC } := by
  simp [fields, BitVec.extractLsb'_and]

/-- A row's mask keeps OP, SEL and the reserved bits, and of GEN, LEN and NLEN the bits given (30_encoding.md R75). -/
def rowMask (gen : BitVec 1) (len nlen : BitVec 7) : Word :=
  Fields.word
    { op := .allOnes 8, sel := .allOnes 2, gen := gen, rsvA := .allOnes 5, len := len,
      rsvB := .allOnes 1, nlen := nlen, rsvC := .allOnes 1 }

section MaskedWord

/-! A word that agrees with a command word under a row's mask is a command word with some operands. -/

variable {w : Word} {op : BitVec 8} {sel : BitVec 2} {gen : BitVec 1}

theorem fields_of_rowMask {g : BitVec 1} {l n : BitVec 7} (h : w &&& rowMask g l n = commandWord op sel gen 0 0) :
    w = commandWord op sel (fields w).gen (fields w).len.toNat (fields w).nlen.toNat ∧
      (fields w).gen &&& g = gen ∧ (fields w).len &&& l = 0 ∧ (fields w).nlen &&& n = 0 := by
  have hf := congrArg fields h
  rw [fields_and, rowMask, fields_word, fields_commandWord] at hf
  simp only [Fields.mk.injEq, BitVec.and_allOnes] at hf
  obtain ⟨hop, hsel, hgen, hA, hlen, hB, hnlen, hC⟩ := hf
  refine ⟨?_, hgen, hlen, hnlen⟩
  calc
    w = Fields.word ⟨(fields w).op, (fields w).sel, (fields w).gen, (fields w).rsvA, (fields w).len,
          (fields w).rsvB, (fields w).nlen, (fields w).rsvC⟩ := (word_fields w).symm
    _ = commandWord op sel (fields w).gen (fields w).len.toNat (fields w).nlen.toNat := by
      simp [commandWord, hop, hsel, hA, hB, hC]

theorem eq_of_lenRow (h : w &&& 0xFF80FFFF#32 = commandWord op sel gen 0 0) :
    w = commandWord op sel gen (fields w).len.toNat 0 := by
  obtain ⟨hw, hgen, -, hnlen⟩ := fields_of_rowMask (g := .allOnes 1) (l := 0) (n := .allOnes 7) h
  rw [BitVec.and_allOnes] at hgen hnlen
  rwa [hgen, hnlen] at hw

theorem eq_of_genRow (h : w &&& 0xFFFFFBFF#32 = commandWord op sel 0 0 0) :
    w = commandWord op sel (BitVec.ofBool ((fields w).gen == 1)) 0 0 := by
  obtain ⟨hw, -, hlen, hnlen⟩ := fields_of_rowMask (g := 0) (l := .allOnes 7) (n := .allOnes 7) h
  rw [BitVec.and_allOnes] at hlen hnlen
  rwa [hlen, hnlen, ← ofBool_gen (fields w).gen] at hw

theorem eq_of_lenNlenRow (h : w &&& 0x8080FFFF#32 = commandWord op sel gen 0 0) :
    w = commandWord op sel gen (fields w).len.toNat (fields w).nlen.toNat := by
  obtain ⟨hw, hgen, -, -⟩ := fields_of_rowMask (g := .allOnes 1) (l := 0) (n := 0) h
  rw [BitVec.and_allOnes] at hgen
  rwa [hgen] at hw

theorem eq_of_fixedRow (h : w &&& 0xFFFFFFFF#32 = commandWord op sel gen 0 0) : w = commandWord op sel gen 0 0 :=
  (BitVec.and_allOnes (x := w)).symm.trans h

end MaskedWord

/-- A word that matches a row is the encoding of a well-formed command (30_encoding.md R75, R78). -/
theorem encode_of_matches {w : Word} :
    ∀ r ∈ opcodeRows, w &&& r.mask = r.value → ∃ i : Instr, i.wellFormed = true ∧ w = encode i := by
  have hl := countFits_toNat (fields w).len
  have hn := countFits_toNat (fields w).nlen
  simp only [opcodeRows, cipherRows, modeRows, List.cons_append, List.nil_append, List.forall_mem_cons]
  exact ⟨fun h => ⟨.keyLoadAes _, hl, eq_of_lenRow h⟩,
    fun h => ⟨.keyLoadTf _, hl, eq_of_lenRow h⟩,
    fun h => ⟨.keyLoadSalsa _ _, Bool.and_eq_true_iff.2 ⟨hl, hn⟩, eq_of_lenNlenRow h⟩,
    fun h => ⟨.keyLoadSalsaGen _, hl, eq_of_lenRow h⟩,
    fun h => ⟨.blockEncAes, rfl, eq_of_fixedRow h⟩,
    fun h => ⟨.blockEncTf, rfl, eq_of_fixedRow h⟩,
    fun h => ⟨.blockDecAes, rfl, eq_of_fixedRow h⟩,
    fun h => ⟨.blockDecTf, rfl, eq_of_fixedRow h⟩,
    fun h => ⟨.salsaProcess, rfl, eq_of_fixedRow h⟩,
    fun h => ⟨.ecbEncAes _, hl, eq_of_lenRow h⟩,
    fun h => ⟨.ecbEncTf _, hl, eq_of_lenRow h⟩,
    fun h => ⟨.ecbDecAes _, hl, eq_of_lenRow h⟩,
    fun h => ⟨.ecbDecTf _, hl, eq_of_lenRow h⟩,
    fun h => ⟨.cbcEncStartAes _, rfl, eq_of_genRow h⟩,
    fun h => ⟨.cbcEncStartTf _, rfl, eq_of_genRow h⟩,
    fun h => ⟨.cbcEncUpdate _, hl, eq_of_lenRow h⟩,
    fun h => ⟨.cbcEncFinal _, hl, eq_of_lenRow h⟩,
    fun h => ⟨.cbcDecStartAes _, hl, eq_of_lenRow h⟩,
    fun h => ⟨.cbcDecStartTf _, hl, eq_of_lenRow h⟩,
    fun h => ⟨.cbcDecUpdate _, hl, eq_of_lenRow h⟩,
    fun h => ⟨.cbcDecFinal _, hl, eq_of_lenRow h⟩,
    fun h => ⟨.cbcAbort, rfl, eq_of_fixedRow h⟩,
    fun h => ⟨.zeroize, rfl, eq_of_fixedRow h⟩,
    List.forall_mem_nil _⟩

open Laws.EncodedRow in
/-- The word of every command matches exactly the row that bears its mnemonic (30_encoding.md R75). -/
theorem encodedRow (i : Instr) : Statement i :=
  match i with
  | .keyLoadAes len => keyLoadAes len
  | .keyLoadTf len => keyLoadTf len
  | .keyLoadSalsa len nlen => keyLoadSalsa len nlen
  | .keyLoadSalsaGen len => keyLoadSalsaGen len
  | .blockEncAes => blockEncAes
  | .blockEncTf => blockEncTf
  | .blockDecAes => blockDecAes
  | .blockDecTf => blockDecTf
  | .salsaProcess => salsaProcess
  | .ecbEncAes len => ecbEncAes len
  | .ecbEncTf len => ecbEncTf len
  | .ecbDecAes len => ecbDecAes len
  | .ecbDecTf len => ecbDecTf len
  | .cbcEncStartAes gen => cbcEncStartAes gen
  | .cbcEncStartTf gen => cbcEncStartTf gen
  | .cbcEncUpdate len => cbcEncUpdate len
  | .cbcEncFinal len => cbcEncFinal len
  | .cbcDecStartAes len => cbcDecStartAes len
  | .cbcDecStartTf len => cbcDecStartTf len
  | .cbcDecUpdate len => cbcDecUpdate len
  | .cbcDecFinal len => cbcDecFinal len
  | .cbcAbort => cbcAbort
  | .zeroize => zeroize

/-- Settles O3: a word that decodes is its command's encoding, and a word that matches a row decodes. -/
theorem wordMatchesOnlyItsRow : Obligations.WordMatchesOnlyItsRow := by
  refine fun w => ⟨fun i h => ?_, fun e h r hr hm => ?_⟩
  · obtain ⟨-, rfl⟩ := encode_of_decode h
    exact encodedRow i
  · obtain ⟨i, hi, rfl⟩ := encode_of_matches r hr hm
    rw [decode_encode hi] at h
    cases h

/-- Settles O6: the printed words are small closed terms of the assembler and of the decoder. -/
theorem workedEncodings : Obligations.WorkedEncodings := by
  unfold Obligations.WorkedEncodings
  decide

end Sys2Proof

/-! ## WRBUF -/

namespace Sys2Proof.Machine

open Sys2Proof Sys2Proof.Spec

theorem wordByte_bufWord (b : List Byte) (k : Nat) {i : Nat} (hi : i < 4) :
    wordByte (bufWord b k) i = b.getD (4 * k + i) 0 := by
  obtain ⟨h0, h1, h2, h3⟩ :=
    wordByte_wordOf (b.getD (4 * k) 0) (b.getD (4 * k + 1) 0) (b.getD (4 * k + 2) 0) (b.getD (4 * k + 3) 0)
  match i, hi with
  | 0, _ => exact h0
  | 1, _ => exact h1
  | 2, _ => exact h2
  | 3, _ => exact h3

/-- A byte register after the words `ks` of b have been written to it in turn (30_encoding.md R82). -/
def writeWords {n : Nat} (b : List Byte) (ks : List Nat) (x : Bytes n) : Bytes n :=
  ks.foldl (fun x k => writeLane x k (bufWord b k)) x

/-- After the first m words, the bytes below 4m are those of b, filled with 0x00. -/
theorem getElem_writeWords_range {n j : Nat} (b : List Byte) (m : Nat) (x : Bytes n) (h : j < n) :
    (writeWords b (List.range m) x)[j] = if j < 4 * m then b.getD j 0 else x[j] := by
  induction m with
  | zero => simp [writeWords]
  | succ m ih =>
    have hstep : writeWords b (List.range (m + 1)) x = writeLane (writeWords b (List.range m) x) m (bufWord b m) := by
      simp [writeWords, List.range_succ]
    rw [hstep, getElem_writeLane, ih, wordByte_bufWord b m (Nat.mod_lt j (by decide))]
    by_cases hj : j / 4 = m
    · rw [if_pos hj, if_pos (by omega), ← hj, Nat.div_add_mod]
    · have hlt : j < 4 * (m + 1) ↔ j < 4 * m := by omega
      simp only [hj, hlt, if_false]

theorem bufWritten_writeWords {n : Nat} (b : List Byte) (x : Bytes n) :
    BufWritten x (writeWords b (List.range (bufWords b.length)) x) b :=
  fun _ => getElem_writeWords_range b (bufWords b.length) x

theorem run_succ {n : Nat} {s t : State} (h : step s = .next t) :
    Host.Core.run Sys2Proof.core (n + 1) s = Host.Core.run Sys2Proof.core n t := by
  have hcore : Sys2Proof.core.step s = .next t := h
  simp only [Host.Core.run, hcore]

/-- A 32-bit host write at an aligned offset of the window is served as a write of the register there. -/
theorem step_of_hostWr {s : State} {l : List Input} {off : Nat} {v : Word} (hr : s.rstN = true)
    (hi : s.inputs = hostWr off v :: l) (ha : off % 4 = 0) :
    step s = respondTo .writeOkay (writeReg v { s with inputs := l } (regAt (BitVec.ofNat 12 off))) := by
  have haligned : (BitVec.ofNat 12 off).toNat % 4 = 0 := by rw [BitVec.toNat_ofNat]; omega
  exact step_of_write haligned ⟨hr, hi⟩

/-- How many bytes a buffer register holds (20_memory.md R51). -/
def BufReg.size : BufReg → Nat
  | .key => 32
  | .nonce => 8
  | .iv => 16
  | .din => 64
  | .dout => 64

/-- The bytes a buffer register holds in a state. -/
def BufReg.bytes (r : BufReg) (s : State) : Bytes r.size :=
  match r with
  | .key => s.key
  | .nonce => s.nonce
  | .iv => s.iv
  | .din => s.din
  | .dout => s.dout

/-- The state with these bytes in a buffer register. A host write leaves DOUT as it is (20_memory.md R56). -/
def BufReg.store (r : BufReg) (x : Bytes r.size) (s : State) : State :=
  match r with
  | .key => { s with key := x }
  | .nonce => { s with nonce := x }
  | .iv => { s with iv := x }
  | .din => { s with din := x }
  | .dout => s

theorem BufReg.store_bytes (r : BufReg) (s : State) : r.store (r.bytes s) s = s := by
  cases r <;> rfl

@[simp] theorem BufReg.store_rstN (r : BufReg) (x : Bytes r.size) (s : State) : (r.store x s).rstN = s.rstN := by
  cases r <;> rfl

@[simp] theorem BufReg.store_inputs (r : BufReg) (x : Bytes r.size) (s : State) : (r.store x s).inputs = s.inputs := by
  cases r <;> rfl

section Wrbuf

variable {s : State} {r : BufReg} (hr : s.rstN = true)
include hr

/-- The write of a register's word k changes that word and is acknowledged (20_memory.md R51, R52). -/
theorem step_wordWrite {k : Nat} (hk : 4 * k < r.size) (x : Bytes r.size) (l : List Input) (u : BusResponse) (v : Word) :
    step (r.store x { s with inputs := hostWr (r.base + 4 * k) v :: l, bus := u }) =
      .next (r.store (writeLane x k v) { s with inputs := l, bus := .writeOkay }) := by
  have hsize : r.size ≤ 64 := by cases r <;> decide
  have hoff : (BitVec.ofNat 12 (r.base + 4 * k)).toNat = r.base + 4 * k := by
    have hbase : r.base ≤ 0x0C0 := by cases r <;> decide
    exact Nat.mod_eq_of_lt (by omega)
  have haligned : (r.base + 4 * k) % 4 = 0 := by
    have hbase : r.base % 4 = 0 := by cases r <;> decide
    omega
  rw [step_of_hostWr (by rwa [BufReg.store_rstN]) (BufReg.store_inputs r x _) haligned]
  cases r <;> simp only [BufReg.size] at hk
  case key => rw [regAt_key (by omega) hoff]; rfl
  case nonce => rw [regAt_nonce (by omega) hoff]; rfl
  case iv => rw [regAt_iv (by omega) hoff]; rfl
  case din => rw [regAt_din (by omega) hoff]; rfl
  case dout => rw [regAt_dout (by omega) hoff]; rfl

/-- The writes of the words `ks` of b, one served by each step. -/
theorem run_wordWrites (b : List Byte) (ks : List Nat) (hks : ∀ k ∈ ks, 4 * k < r.size) (x : Bytes r.size)
    (u : BusResponse) :
    ∃ u', Host.Core.run Sys2Proof.core ks.length
        (r.store x { s with inputs := ks.map fun k => hostWr (r.base + 4 * k) (bufWord b k), bus := u }) =
      .next (r.store (writeWords b ks x) { s with inputs := [], bus := u' }) := by
  induction ks generalizing x u with
  | nil => exact ⟨u, rfl⟩
  | cons k ks ih =>
    obtain ⟨hk, hks⟩ := List.forall_mem_cons.1 hks
    obtain ⟨u', hrun⟩ := ih hks (writeLane x k (bufWord b k)) .writeOkay
    exact ⟨u', (run_succ (step_wordWrite hr hk x _ u _)).trans hrun⟩

theorem run_wrbuf {b : List Byte} (hin : s.inputs = wrbuf r b) (hb : b.length ≤ r.size) :
    ∃ u, Host.Core.run Sys2Proof.core (bufWords b.length) s =
      .next (r.store (writeWords b (List.range (bufWords b.length)) (r.bytes s)) { s with inputs := [], bus := u }) := by
  have hks : ∀ k ∈ List.range (bufWords b.length), 4 * k < r.size := by
    intro k hk
    have hwords : r.size % 4 = 0 := by cases r <;> rfl
    rw [List.mem_range, bufWords] at hk
    omega
  have hrun := run_wordWrites hr b _ hks (r.bytes s) s.bus
  rwa [List.length_range, ← wrbuf, ← hin, BufReg.store_bytes] at hrun

end Wrbuf

/-- Settles O14, by induction on the words that WRBUF writes. -/
theorem wrbufFillsTheRegister : Obligations.WrbufFillsTheRegister := by
  refine fun s b hr r hin => ⟨?_, ?_, ?_, ?_⟩ <;>
    (rintro rfl hb
     obtain ⟨u, hrun⟩ := run_wrbuf hr hin hb
     exact ⟨_, hrun, bufWritten_writeWords b _, rfl⟩)

end Sys2Proof.Machine

/-! ## A block command is the ECB command of one block -/

namespace Sys2Proof.Machine

open Sys2Proof

/-- A buffer of one block is that block through the cipher (44_modes.md R192). -/
theorem ecbBuffer_dinBuffer_sixteen (f : Block → Block) (s : State) :
    ecbBuffer f (dinBuffer s 16) = (f (slice s.din 0 16)).toList := by
  have hone : (dinBuffer s 16).length / 16 = 1 := by rw [length_dinBuffer]; rfl
  have hblock : fillTo 16 ((dinBuffer s 16).take 16) = slice s.din 0 16 := by
    apply Vector.ext
    intro i hi
    simp [dinBuffer, hi, show i < 64 by omega]
  rw [ecbBuffer, hone, ecbBlocks, ecbBlocks, hblock, List.append_nil]

/-- Under opcodes that abort no stream, the two commands end alike (40_command.md R95). -/
theorem runBlock_eq_runEcb_sixteen {op op' : BitVec 8} (h : isCbcOp op = false) (h' : isCbcOp op' = false)
    (c : CipherSel) (f : Block → Block) (s : State) : runBlock op c f s = runEcb op' c f 16 s := by
  have hlen : ecbLenOk 16 = true := by decide
  cases hk : s.keyed c
  · simp [runBlock, runEcb, hk, raiseError_of_not_cbc h, raiseError_of_not_cbc h']
  · simp [runBlock, runEcb, hk, hlen, ecbBuffer_dinBuffer_sixteen]

/-- Settles O56, the two ends compared once for every cipher and direction. -/
theorem blockCommandsAreEcbOfSixteen : Obligations.BlockCommandsAreEcbOfSixteen := by
  refine fun s => ⟨?_, ?_, ?_, ?_⟩
  · exact congrArg _ (runBlock_eq_runEcb_sixteen (by decide) (by decide) .aes _ s)
  · exact congrArg _ (runBlock_eq_runEcb_sixteen (by decide) (by decide) .aes _ s)
  · exact congrArg _ (runBlock_eq_runEcb_sixteen (by decide) (by decide) .tf _ s)
  · exact congrArg _ (runBlock_eq_runEcb_sixteen (by decide) (by decide) .tf _ s)

end Sys2Proof.Machine

/-! ## The illegal words -/

namespace Sys2Proof

/-- The fields stand in R74's table: none of the cases (a), (b) and (d) of 30_encoding.md R76 holds of them. -/
def Fields.InMap (f : Fields) : Prop :=
  opAssigned f.op = true ∧ (f.gen = 0 ∨ usesGen f.op f.sel = true) ∧ (f.len = 0 ∨ usesLen f.op = true) ∧
  (f.nlen = 0 ∨ usesNlen f.op f.sel f.gen = true) ∧ selLegal f.op f.sel = true

/-- A word is legal when its fields stand in the map and no reserved bit, case (c) of 30_encoding.md R76, is set. -/
theorem illegalWord_eq_false {w : Word} : illegalWord w = false ↔
    (fields w).rsvA = 0 ∧ (fields w).rsvB = 0 ∧ (fields w).rsvC = 0 ∧ (fields w).InMap := by
  simp only [illegalWord, Fields.InMap, Bool.or_eq_false_iff, Bool.and_eq_false_iff, Bool.not_eq_false',
    bne_eq_false_iff_eq]
  tauto

/-- Each row of the decoder asks of the fields what R74's table asks of its opcode. -/
theorem exists_decodeFields_eq_ok {f : Fields} : (∃ i, decodeFields f = .ok i) ↔ f.InMap := by
  obtain ⟨op, sel, gen, rsvA, len, rsvB, nlen, rsvC⟩ := f
  simp only [decodeFields, Fields.InMap]
  split
  case h_15 =>
    have hsel : selLegal op sel = false := by
      unfold selLegal
      split
      case h_15 => rfl
      all_goals contradiction
    simp [hsel]
  all_goals
    rename_i hn
    obtain ⟨-, rfl⟩ := BitVec.toNat_eq_nat.1 hn
  -- KEY_LOAD, where SEL and GEN say which fields are used
  case h_1 =>
    obtain rfl | rfl | rfl | rfl := sel_cases sel <;> obtain rfl | rfl := gen_cases gen <;>
      simp [opAssigned, selLegal, usesGen, usesLen, usesNlen]
  all_goals simp [opAssigned, selLegal, usesGen, usesLen, usesNlen, exists_or, and_assoc]

theorem exists_decode_eq_ok {w : Word} : (∃ i, decode w = .ok i) ↔ illegalWord w = false := by
  simp only [decode_eq_ok, exists_and_left, exists_decodeFields_eq_ok, illegalWord_eq_false]

theorem exists_decode_eq_error {w : Word} : (∃ e, decode w = .error e) ↔ illegalWord w = true := by
  rw [← Bool.not_eq_false, ← exists_decode_eq_ok]
  cases decode w <;> simp

end Sys2Proof

namespace Sys2Proof.Machine

open Sys2Proof Sys2Proof.Spec

theorem executeWord_of_decode {w : Word} {i : Instr} (h : decode w = .ok i) (s : State) : executeWord w s = exec i s := by
  simp only [executeWord, h]

/-- An illegal word raises IllegalCommand under its own OP, whatever its fault (40_command.md R91, R96). -/
theorem executeWord_of_illegal {w : Word} (h : illegalWord w = true) (s : State) :
    executeWord w s = .next (raiseError (fields w).op .illegalCommand s) := by
  obtain ⟨e, he⟩ := exists_decode_eq_error.2 h
  simp only [executeWord, he]

/-- Settles O4, row by row of the opcode map. -/
theorem illegalWordsAreThoseOfTheMap : Obligations.IllegalWordsAreThoseOfTheMap :=
  fun _ => ⟨exists_decode_eq_error, fun h s => ⟨_, executeWord_of_illegal h s, raiseError_err s _ _⟩⟩

end Sys2Proof.Machine

/-! ## What a failure writes -/

namespace Sys2Proof.Machine

open Sys2Proof Sys2Proof.Spec

/-- An error under an opcode that 40_command.md R95 lists closes the stream. -/
theorem failedAborting_raiseError {op : BitVec 8} (h : isCbcOp op = true) (e : ErrCode) (s : State) :
    FailedAborting e s (raiseError op e s) := by
  rw [raiseError_of_cbc h]
  rfl

/-- An error under any other opcode writes the result fields alone. -/
theorem failed_raiseError {op : BitVec 8} (h : isCbcOp op = false) (e : ErrCode) (s : State) :
    Failed e s (raiseError op e s) := by
  rw [raiseError_of_not_cbc h]
  rfl

theorem isCbcOp_iff_mem {op : BitVec 8} :
    isCbcOp op = true ↔ op ∈ [0x08#8, 0x09#8, 0x0A#8, 0x0C#8, 0x0D#8, 0x0E#8, 0x0F#8] := by
  simp [isCbcOp, or_assoc]

/-- The commands of the opcodes that 40_command.md R95 lists. -/
theorem isCbcOp_opOf (i : Instr) : isCbcOp (opOf i) = isCbcCommand i := by
  cases i <;> (rw [opOf, encode, opOf_eq]; rfl)

/-- Settles O5: the error is raised under the word's own OP. -/
theorem illegalWordAbortsOnlyForCbcOpcode : Obligations.IllegalWordAbortsOnlyForCbcOpcode := by
  refine fun w s h => ⟨_, executeWord_of_illegal h s, fun hop => ?_, fun hop => ?_⟩
  · exact failedAborting_raiseError (isCbcOp_iff_mem.2 hop) _ s
  · exact failed_raiseError (Bool.eq_false_of_not_eq_true (mt isCbcOp_iff_mem.1 hop)) _ s

/-- Settles O25: a command that ends with an error raised it under its own opcode, in the state it began in. -/
theorem failureWritesOnlyTheResult : Obligations.FailureWritesOnlyTheResult := by
  intro i s t h herr
  obtain ⟨-, rfl⟩ | ⟨-, rfl⟩ := exec_cases h
  · rw [raiseError_err, ← isCbcOp_opOf]
    exact ⟨fun hop => failedAborting_raiseError hop _ s, fun hop => failed_raiseError hop _ s⟩
  · exact absurd (complete_err _ _) herr

end Sys2Proof.Machine

/-! ## The step that serves a write to CMD -/

namespace Sys2Proof.Machine

open Sys2Proof Sys2Proof.Spec

/-- The step that serves a write to CMD answers as `Execute(w)` does, the write acknowledged (40_command.md R90). -/
theorem step_of_cmdWrite {s t : State} {rest : List Input} {w : Word} (h : ServesNext (.write 0x000 4 w) rest s)
    (ht : executeWord w { s with inputs := rest } = .next t) : step s = .next { t with bus := .writeOkay } := by
  rw [step_of_write rfl h, regAt_cmd rfl, writeReg, ht]
  rfl

/-- The input that `issueNext` places is a write to CMD, `rst_n` high (log entry 6). -/
theorem servesNext_issueNext (w : Word) (s : State) : ServesNext (.write 0x000 4 w) s.inputs (issueNext w s) := ⟨rfl, rfl⟩

theorem decode_of_decodeTableWord {nbits w : Nat} {i : Instr} (h : decodeTableWord nbits w = some i) :
    decode (tableWord nbits w) = .ok i := by
  unfold decodeTableWord at h
  split at h
  · next j hj => rw [hj, Option.some.inj h]
  · cases h

/-- Settles O15: each clause is one write to CMD. -/
theorem stepRunsTheDecodedCommand : Obligations.StepRunsTheDecodedCommand := by
  refine ⟨fun s rest w i t hs hw ht => ?decoded, fun s rest w hs hw => ?illegal, fun s nbits w i t hw ht => ?fetched⟩
  case decoded => exact step_of_cmdWrite hs ((executeWord_of_decode hw _).trans ht)
  case illegal =>
    have ht := executeWord_of_illegal hw { s with inputs := rest }
    exact ⟨_, ht, raiseError_err _ _ _, step_of_cmdWrite hs ht⟩
  case fetched =>
    have hexec := (executeWord_of_decode (decode_of_decodeTableWord hw) { s with rstN := true }).trans ht
    exact step_of_cmdWrite (servesNext_issueNext _ s) hexec

end Sys2Proof.Machine

/-! ## CBC_ABORT and ZEROIZE -/

namespace Sys2Proof.Machine

open Sys2Proof Sys2Proof.Spec

/-- A completion leaves the result fields as 40_command.md R93 says. -/
theorem output_complete {out : List Byte} (h : out.length ≤ 64) (u : State) : Output out (complete out u) := by
  refine ⟨rfl, ?_, ?_⟩
  · rw [complete_outLen, BitVec.toNat_ofNat, Nat.mod_eq_of_lt (by omega)]
  · rw [complete_dout, toList_fillTo out h]

/-- With no output, a cleared core stays at its reset values. -/
theorem complete_nil_clearCore (s : State) : complete [] (clearCore s) = clearCore s := by
  rw [complete, fillTo_nil]
  rfl

/-- Settles O45: CBC_ABORT checks nothing and completes with no output over the closed stream. -/
theorem cbcAbortClosesTheStream : Obligations.CbcAbortClosesTheStream :=
  fun s => ⟨complete [] (closeStream s), rfl, output_complete (out := []) (Nat.zero_le 64) _, rfl⟩

/-- Settles O46: ZEROIZE checks nothing, and completing with no output leaves a cleared core as it is. -/
theorem zeroizeRestoresReset : Obligations.ZeroizeRestoresReset := by
  intro s
  have hexec : exec .zeroize s = .next (clearCore s) := congrArg Host.Outcome.next (complete_nil_clearCore s)
  exact ⟨clearCore s, hexec, clearCore_sameCore s, rfl, rfl, rfl, rfl, rfl⟩

end Sys2Proof.Machine

/-! ## Arithmetic in GF(2^8) -/

namespace Sys2Proof.Machine

open Sys2Proof

/-- The loop of GFMUL is additive in the multiplier and the accumulator together. -/
theorem gfmulLoop_xor (x y : Byte) (P : BitVec 9) (n : Nat) (a r q : BitVec 9) :
    gfmulLoop (x ^^^ y) P n a (r ^^^ q) = gfmulLoop x P n a r ^^^ gfmulLoop y P n a q := by
  induction n generalizing a r q with
  | zero => rfl
  | succ n ih =>
    have hacc : (if (x ^^^ y).getLsbD (7 - n) then r ^^^ q ^^^ a else r ^^^ q) =
        (if x.getLsbD (7 - n) then r ^^^ a else r) ^^^ (if y.getLsbD (7 - n) then q ^^^ a else q) := by
      rw [BitVec.getLsbD_xor]
      cases x.getLsbD (7 - n) <;> cases y.getLsbD (7 - n)
      · rfl
      · exact BitVec.xor_assoc r q a
      · show r ^^^ q ^^^ a = r ^^^ a ^^^ q
        ac_rfl
      · show r ^^^ q = r ^^^ a ^^^ (q ^^^ a)
        calc r ^^^ q = r ^^^ q ^^^ (a ^^^ a) := by rw [BitVec.xor_self, BitVec.xor_zero]
          _ = r ^^^ a ^^^ (q ^^^ a) := by ac_rfl
    simp only [gfmulLoop, hacc, ih]

theorem gfmul_xor (a x y : Byte) (P : BitVec 9) : gfmul a (x ^^^ y) P = gfmul a x P ^^^ gfmul a y P := by
  have h : gfmulLoop (x ^^^ y) P 8 (a.setWidth 9) 0 = _ := gfmulLoop_xor x y P 8 (a.setWidth 9) 0 0
  rw [gfmul, h, BitVec.setWidth_xor, gfmul, gfmul]

/-- A row times a vector is additive in the vector. -/
theorem gfDot_zipWith_xor (P : BitVec 9) (row : List Byte) {u v : List Byte} (h : u.length = v.length) :
    gfDot P row (List.zipWith (· ^^^ ·) u v) = gfDot P row u ^^^ gfDot P row v := by
  induction row generalizing u v with
  | nil => simp [gfDot, xorAll]
  | cons m row ih =>
    match u, v, h with
    | [], [], _ => simp [gfDot, xorAll]
    | x :: u, y :: v, h =>
      have hrow := ih (Nat.succ.inj h)
      simp only [gfDot, List.zipWith_cons_cons, xorAll, gfmul_xor] at hrow ⊢
      rw [hrow]
      ac_rfl

/-- Every byte is an XOR of bytes that have one bit set. -/
theorem byte_xor_induction {p : Byte → Prop} (zero : p 0) (xor : ∀ x y, p x → p y → p (x ^^^ y))
    (bit : ∀ i : Fin 8, p (BitVec.twoPow 8 i)) (x : Byte) : p x := by
  have hlow (n : Nat) (hn : n ≤ 8) : p ((x.setWidth n).setWidth 8) := by
    induction n with
    | zero => rwa [BitVec.of_length_zero (x := x.setWidth 0)]
    | succ n ih =>
      have hsplit : (x.setWidth (n + 1)).setWidth 8 =
          (x.setWidth n).setWidth 8 ^^^ if x.getLsbD n then BitVec.twoPow 8 n else 0 := by
        apply BitVec.eq_of_getLsbD_eq
        intro i hi
        rcases Nat.lt_trichotomy i n with h | h | h
        · cases x.getLsbD n <;> simp [h, hi, h.ne, Nat.lt_succ_of_lt h]
        · subst h
          cases hx : x.getLsbD i <;> simp [-BitVec.getLsbD_eq_getElem, hx, hi]
        · cases x.getLsbD n <;> simp [hi, h.ne', Nat.not_lt.2 h.le, Nat.not_lt.2 h]
      rw [hsplit]
      refine xor _ _ (ih (Nat.le_of_succ_le hn)) ?_
      split
      · exact bit ⟨n, hn⟩
      · exact zero
  simpa using hlow 8 le_rfl

end Sys2Proof.Machine

/-! ## The tables and matrices of AES -/

namespace Sys2Proof.Machine

open Sys2Proof

/-- Step 2 of R112 solved for y: `y[i] = s[i-1] ^ s[i-3] ^ s[i-6] ^ 0x05[i]`, indices modulo 8. -/
def affineInverse (s : Byte) : Byte := s.rotateLeft 1 ^^^ s.rotateLeft 3 ^^^ s.rotateLeft 6 ^^^ 0x05#8

/-- R112's affine map gives s back. -/
theorem getLsbD_affineInverse : ∀ (s : Byte) (i : Nat), i < 8 → s.getLsbD i =
    ((affineInverse s).getLsbD i ^^ (affineInverse s).getLsbD ((i + 4) % 8) ^^ (affineInverse s).getLsbD ((i + 5) % 8) ^^
      (affineInverse s).getLsbD ((i + 6) % 8) ^^ (affineInverse s).getLsbD ((i + 7) % 8) ^^ (0x63#8).getLsbD i) := by
  decide +kernel

/-- The table's byte, taken back through the affine map, is the inverse (41_aes.md R112). -/
theorem gfmul_affineInverse_sbox : ∀ x : Byte, x ≠ 0 → gfmul x (affineInverse (sbox x)) 0x11B = 1 := by decide +kernel

@[simp] theorem invSbox_sbox : ∀ x : Byte, invSbox (sbox x) = x := by decide +kernel

/-- Settles O49: the inverse is read off the table through the affine map. -/
theorem sboxIsTheAffineMapOfTheInverse : Obligations.SboxIsTheAffineMapOfTheInverse := by
  refine fun x => ⟨⟨affineInverse (sbox x), ?zero, gfmul_affineInverse_sbox x, getLsbD_affineInverse _⟩,
    invSbox_sbox x⟩
  case zero =>
    rintro rfl
    decide

/-- Column c of MIX times a byte. -/
def mixScaled (c : Nat) (x : Byte) : List Byte := mixMatrix.map fun row => gfmul (row.getD c 0) x 0x11B

@[simp] theorem length_mixScaled (c : Nat) (x : Byte) : (mixScaled c x).length = 4 := rfl

theorem mixScaled_xor (c : Nat) (x y : Byte) :
    mixScaled c (x ^^^ y) = List.zipWith (· ^^^ ·) (mixScaled c x) (mixScaled c y) := by
  simp [mixScaled, mixMatrix, gfmul_xor]

/-- The matrix of InvMixColumns times MIX is the identity matrix (41_aes.md R118). -/
theorem gfDot_mixScaled (r c : Fin 4) (x : Byte) :
    gfDot 0x11B (invMixMatrix.getD r []) (mixScaled c x) = if r = c then x else 0 := by
  induction x using byte_xor_induction with
  | zero => revert r c; decide +kernel
  | xor x y hx hy =>
    rw [mixScaled_xor, gfDot_zipWith_xor _ _ (by simp), hx, hy]
    split
    · rfl
    · rfl
  | bit i => revert r c i; decide +kernel

end Sys2Proof.Machine

/-! ## The round operations of AES -/

namespace Sys2Proof.Machine

open Sys2Proof

@[simp] theorem getElem_mkState (f : Fin 4 → Fin 4 → Byte) {r c : Nat} (hr : r < 4) (hc : c < 4) :
    (mkState f)[r][c] = f ⟨r, hr⟩ ⟨c, hc⟩ := by
  simp [mkState]

theorem aesState_ext {s t : AesState} (h : ∀ r c : Fin 4, s[r][c] = t[r][c]) : s = t := by
  apply Vector.ext
  intro r hr
  apply Vector.ext
  intro c hc
  exact h ⟨r, hr⟩ ⟨c, hc⟩

@[simp] theorem toState_fromState (s : AesState) : toState (fromState s) = s := by
  apply aesState_ext
  intro r c
  have hr : (r.val + 4 * c.val) % 4 = r := by omega
  have hc : (r.val + 4 * c.val) / 4 = c := by omega
  simp only [toState, fromState, Fin.getElem_fin, getElem_mkState, Vector.getElem_ofFn, hr, hc]

@[simp] theorem fromState_toState (b : Block) : fromState (toState b) = b := by
  apply Vector.ext
  intro i hi
  simp [toState, fromState, Nat.mod_add_div]

@[simp] theorem addRoundKey_addRoundKey (s : AesState) (k : Block) : addRoundKey (addRoundKey s k) k = s := by
  apply aesState_ext
  simp [addRoundKey]

@[simp] theorem invSubBytes_subBytes (s : AesState) : invSubBytes (subBytes s) = s := by
  apply aesState_ext
  simp [invSubBytes, subBytes]

/-- InvShiftRows moves the byte at column c of row r right by r (41_aes.md R116). -/
theorem getElem_invShiftRows (s : AesState) (r c : Fin 4) :
    (invShiftRows s)[r.val][(c.val + r.val) % 4] = s[r.val][c.val] := by
  have hc : ((c.val + r.val) % 4 + 4 - r.val) % 4 = c := by omega
  simp [invShiftRows, hc]

@[simp] theorem invShiftRows_shiftRows (s : AesState) : invShiftRows (shiftRows s) = s := by
  apply aesState_ext
  intro r c
  have hc : ((c.val + 4 - r.val) % 4 + r.val) % 4 = c := by omega
  simp only [invShiftRows, shiftRows, Fin.getElem_fin, getElem_mkState, hc]

/-- Column c of the state (41_aes.md R117). -/
def AesState.column (s : AesState) (c : Fin 4) : List Byte := [s[0][c], s[1][c], s[2][c], s[3][c]]

/-- A mixed column is the sum of MIX's columns, each times its byte. -/
theorem column_mixColumns (s : AesState) (c : Fin 4) :
    (mixColumns s).column c =
      List.zipWith (· ^^^ ·) (mixScaled 0 s[0][c]) (List.zipWith (· ^^^ ·) (mixScaled 1 s[1][c])
        (List.zipWith (· ^^^ ·) (mixScaled 2 s[2][c]) (mixScaled 3 s[3][c]))) := by
  simp [AesState.column, mixColumns, mulColumns, mixScaled, mixMatrix, gfDot, xorAll]

theorem gfDot_column_mixColumns (row : List Byte) (s : AesState) (c : Fin 4) :
    gfDot 0x11B row ((mixColumns s).column c) =
      gfDot 0x11B row (mixScaled 0 s[0][c]) ^^^ (gfDot 0x11B row (mixScaled 1 s[1][c]) ^^^
        (gfDot 0x11B row (mixScaled 2 s[2][c]) ^^^ gfDot 0x11B row (mixScaled 3 s[3][c]))) := by
  rw [column_mixColumns, gfDot_zipWith_xor, gfDot_zipWith_xor, gfDot_zipWith_xor] <;> simp

@[simp] theorem invMixColumns_mixColumns (s : AesState) : invMixColumns (mixColumns s) = s := by
  apply aesState_ext
  intro r c
  calc (invMixColumns (mixColumns s))[r][c]
      = gfDot 0x11B (invMixMatrix.getD r []) ((mixColumns s).column c) := getElem_mkState _ _ _
    _ = (if r = 0 then s[0][c] else 0) ^^^ ((if r = 1 then s[1][c] else 0) ^^^
          ((if r = 2 then s[2][c] else 0) ^^^ if r = 3 then s[3][c] else 0)) := by
      rw [gfDot_column_mixColumns, ← gfDot_mixScaled r 0, ← gfDot_mixScaled r 1, ← gfDot_mixScaled r 2,
        ← gfDot_mixScaled r 3]
      rfl
    _ = s[r][c] := by fin_cases r <;> simp

/-- Settles O50, operation by operation. -/
theorem inverseRoundOperations : Obligations.InverseRoundOperations :=
  fun s => ⟨invMixColumns_mixColumns s, invShiftRows_shiftRows s, invSubBytes_subBytes s, addRoundKey_addRoundKey s,
    getElem_invShiftRows s⟩

end Sys2Proof.Machine

/-! ## The AES key schedule -/

namespace Sys2Proof.Machine

open Sys2Proof Sys2Proof.Spec

/-- Word i of KeyExpansion (41_aes.md R121). -/
def expandedWord (K : Bytes 32) (i : Nat) : Bytes 4 := keyWord K i (keyWords K i)

@[simp] theorem length_keyWords (K : Bytes 32) (n : Nat) : (keyWords K n).length = n := by
  induction n with
  | zero => rfl
  | succ n ih => simp [keyWords, ih]

/-- Later words leave the earlier ones as they are. -/
theorem getD_keyWords (K : Bytes 32) {i n : Nat} (h : i < n) : (keyWords K n).getD i (zeros 4) = expandedWord K i := by
  induction n with
  | zero => omega
  | succ n ih =>
    rcases Nat.lt_succ_iff_lt_or_eq.1 h with hlt | rfl
    · rw [keyWords, List.getD_append _ _ _ _ (by simpa using hlt), ih hlt]
    · simp [keyWords, expandedWord]

theorem expandedWord_of_lt (K : Bytes 32) {i : Nat} (h : i < 8) : expandedWord K i = slice K (4 * i) 4 := by
  rw [expandedWord, keyWord, if_pos h]

theorem rcon_eq {j : Nat} (h1 : 1 ≤ j) (h7 : j ≤ 7) : rcon j = #v[BitVec.ofNat 8 (2 ^ (j - 1)), 0, 0, 0] := by
  interval_cases j <;> rfl

theorem expandedWord_of_ge (K : Bytes 32) {i : Nat} (h8 : 8 ≤ i) (h60 : i < 60) :
    expandedWord K i = xorBytes (expandedWord K (i - 8))
      (if i % 8 = 0 then
        xorBytes (subWord (rotWord (expandedWord K (i - 1)))) #v[BitVec.ofNat 8 (2 ^ (i / 8 - 1)), 0, 0, 0]
       else if i % 8 = 4 then subWord (expandedWord K (i - 1))
       else expandedWord K (i - 1)) := by
  rw [expandedWord, keyWord, if_neg (Nat.not_lt.2 h8), getD_keyWords K (by omega : i - 1 < i),
    getD_keyWords K (by omega : i - 8 < i), rcon_eq (by omega) (by omega)]

/-- Round key r holds the words 4r to 4r + 3 (41_aes.md R122). -/
theorem scheduleWord_aesRoundKeys (K : Bytes 32) {i : Nat} (h : i < 60) :
    scheduleWord (aesRoundKeys K) i = expandedWord K i := by
  apply Vector.ext
  intro j hj
  have hr : i / 4 < 15 := by omega
  have hb : 4 * (i % 4) + j < 16 := by omega
  have hword : 4 * (i / 4) + (4 * (i % 4) + j) / 4 = i := by omega
  have hbyte : (4 * (i % 4) + j) % 4 = j := by omega
  rw [scheduleWord, getElem_slice _ hj, byteAt_of_lt _ hb, roundKey, dif_pos hr, aesRoundKeys]
  simp only [Vector.getElem_ofFn, hword, hbyte, getD_keyWords K h, byteAt_of_lt _ hj]

/-- Settles O32, through the words of KeyExpansion that the round keys hold. -/
theorem aesScheduleFollowsTheRecurrence : Obligations.AesScheduleFollowsTheRecurrence := by
  refine fun K => ⟨fun i h => ?first, fun i h8 h60 => ?next⟩
  case first => rw [scheduleWord_aesRoundKeys K (by omega), expandedWord_of_lt K h]
  case next =>
    rw [scheduleWord_aesRoundKeys K h60, scheduleWord_aesRoundKeys K (by omega : i - 8 < 60),
      scheduleWord_aesRoundKeys K (by omega : i - 1 < 60), expandedWord_of_ge K h8 h60]

end Sys2Proof.Machine

/-! ## The commands of a block cipher -/

namespace Sys2Proof.Machine

open Sys2Proof Sys2Proof.Spec

/-- What every KEY_LOAD of a block cipher does, given what it loads (40_command.md R98). -/
theorem blockKeyLoad_of_exec {i : Nat → Instr} {c : CipherSel} {load : State → State} {loaded : State → State → Prop}
    (hexec : ∀ len s, exec (i len) s = .next (loadBlockKey c len load s))
    (hload : ∀ s, loaded s (complete [] (load s))) : BlockKeyLoad i c loaded := by
  intro s len
  rw [hexec, loadBlockKey_eq_conclude]
  refine ⟨fun hs => ?rekeys, fun hs => ⟨fun hl => ?length, fun hl => ?loads⟩⟩
  case rekeys =>
    rw [if_pos hs]
    exact ⟨_, rfl, failed_raiseError (op := 0x01) rfl _ s⟩
  case length =>
    rw [if_neg hs, if_pos hl]
    exact ⟨_, rfl, failed_raiseError (op := 0x01) rfl _ s⟩
  case loads =>
    rw [if_neg hs, if_neg (not_not.2 hl)]
    exact ⟨_, rfl, output_complete (out := []) (Nat.zero_le 64) _, hload s⟩

/-- Settles O31: KEY_LOAD.AES is the block ciphers' KEY_LOAD, with the AES context as what it loads. -/
theorem keyLoadAesLoadsTheSchedule : Obligations.KeyLoadAesLoadsTheSchedule :=
  blockKeyLoad_of_exec (load := loadAes) (fun _ _ => rfl) fun _ => rfl

/-- What every block command does, under an opcode that aborts no stream (40_command.md R95, R97). -/
theorem blockCommand_of_exec {i : Instr} {op : BitVec 8} {c : CipherSel} {f : State → Block → Block}
    (hop : isCbcOp op = false) (hexec : ∀ s, exec i s = .next (runBlock op c (f s) s)) : BlockCommand i c f := by
  intro s
  rw [hexec, runBlock_eq_conclude]
  refine ⟨fun hk => ?unkeyed, fun hk => ?keyed⟩
  case unkeyed =>
    rw [if_pos hk]
    exact ⟨_, rfl, failed_raiseError hop _ s⟩
  case keyed =>
    rw [hk]
    exact ⟨_, rfl, output_complete (by simp) s, rfl⟩

/-- Settles O36: each of the four is the shared block command with its own cipher. -/
theorem blockCommandsTransformOneBlock : Obligations.BlockCommandsTransformOneBlock :=
  ⟨blockCommand_of_exec rfl fun _ => rfl, blockCommand_of_exec rfl fun _ => rfl,
    blockCommand_of_exec rfl fun _ => rfl, blockCommand_of_exec rfl fun _ => rfl⟩

end Sys2Proof.Machine

/-! ## AES decryption undoes encryption -/

namespace Sys2Proof.Machine

open Sys2Proof Sys2Proof.Spec

/-- The inverse rounds, from the substituted and shifted end of n rounds, come back to the substituted and shifted
state that the rounds began in. -/
theorem aesInvRounds_aesRounds (rk : Vector Block 15) (n : Nat) (s : AesState) :
    aesInvRounds rk n (shiftRows (subBytes (aesRounds rk n s))) = shiftRows (subBytes s) := by
  induction n with
  | zero => rfl
  | succ n ih =>
    rw [aesInvRounds, aesRounds, invShiftRows_shiftRows, invSubBytes_subBytes, addRoundKey_addRoundKey,
      invMixColumns_mixColumns, ih]

theorem aesInvCipher_aesCipher (rk : Vector Block 15) (b : Block) : aesInvCipher rk (aesCipher rk b) = b := by
  unfold aesInvCipher aesCipher
  simp only [toState_fromState, addRoundKey_addRoundKey, aesInvRounds_aesRounds, invShiftRows_shiftRows,
    invSubBytes_subBytes, fromState_toState]

/-- A string stands at the front of any longer filling of it. -/
theorem slice_fillTo {m n : Nat} (b : Bytes n) (h : n ≤ m) : slice (fillTo m b.toList) 0 n = b := by
  apply Vector.ext
  intro i hi
  simp [hi, hi.trans_le h]

theorem toList_slice_zero {m : Nat} (x : Bytes m) {n : Nat} (h : n ≤ m) : (slice x 0 n).toList = x.toList.take n := by
  apply List.ext_getElem
  · simp [h]
  · intro i hi _
    have hn : i < n := by simpa using hi
    simp [hn.trans_le h]

theorem complete_output {out : List Byte} (h : out.length ≤ 64) (u : State) : (complete out u).output = out := by
  obtain ⟨-, hlen, hdout⟩ := output_complete h u
  rw [State.output, hlen, hdout, List.take_left]

/-- A command that ended OK had no error. -/
theorem firstError_of_err_ok {i : Instr} {s t : State} (h : exec i s = .next t) (ht : t.err = .ok) :
    firstError i s = .ok := by
  obtain ⟨-, rfl⟩ | ⟨he, -⟩ := exec_cases h
  · exact (raiseError_err s _ _).symm.trans ht
  · exact he

/-- A command without an error answers its output over its effect. -/
theorem eq_complete_of_exec {i : Instr} {s t : State} (h : exec i s = .next t) (he : firstError i s = .ok) :
    t = complete (outputOf i s) (effect i s) := by
  obtain ⟨hne, -⟩ | ⟨-, ht⟩ := exec_cases h
  · exact absurd he hne
  · exact ht

/-- Settles O47: the rounds are undone from the last to the first, and BLOCK_DEC.AES finds in DIN the block that
BLOCK_ENC.AES left in DOUT. -/
theorem aesDecryptUndoesEncrypt : Obligations.AesDecryptUndoesEncrypt := by
  refine ⟨aesInvCipher_aesCipher, fun s t u henc hok hdec => ?_⟩
  have hkeyed : firstError .blockEncAes s = .ok := firstError_of_err_ok henc hok
  obtain rfl := eq_complete_of_exec henc hkeyed
  obtain rfl := eq_complete_of_exec hdec hkeyed
  refine ⟨rfl, ?_⟩
  rw [complete_output (by simp [outputOf])]
  simp [outputOf, effect, slice_fillTo, aesInvCipher_aesCipher, toList_slice_zero]

end Sys2Proof.Machine

/-! ## Twofish decryption undoes encryption -/

namespace Sys2Proof.Machine

open Sys2Proof Sys2Proof.Spec

@[simp] theorem rol32_ror32 (x : Word) {n : Nat} (hn : n < 32) : rol32 (ror32 x n) n = x := by
  apply BitVec.eq_of_getElem_eq
  intro i hi
  simp only [rol32, ror32, BitVec.getElem_rotateLeft, Nat.mod_eq_of_lt hn]
  split
  case isTrue h => simp [BitVec.getElem_rotateRight, Nat.mod_eq_of_lt hn]
  case isFalse h =>
    have hlow : i - n < 32 - n := by omega
    have hback : n + (i - n) = i := by omega
    simp [BitVec.getElem_rotateRight, Nat.mod_eq_of_lt hn, hlow, hback]

@[simp] theorem ror32_rol32 (x : Word) {n : Nat} (hn : n < 32) : ror32 (rol32 x n) n = x := by
  apply BitVec.eq_of_getElem_eq
  intro i hi
  simp only [rol32, ror32, BitVec.getElem_rotateRight, Nat.mod_eq_of_lt hn]
  split
  case isTrue h => simp [BitVec.getElem_rotateLeft, Nat.mod_eq_of_lt hn]
  case isFalse h =>
    have hlow : i - (32 - n) < n := by omega
    have hback : 32 - n + (i - (32 - n)) = i := by omega
    simp [BitVec.getElem_rotateLeft, Nat.mod_eq_of_lt hn, hlow, hback]

theorem vector4_eta {α : Type} (R : Vector α 4) : #v[R[0], R[1], R[2], R[3]] = R := by
  apply Vector.ext
  intro i hi
  match i, hi with
  | 0, _ | 1, _ | 2, _ | 3, _ => rfl

/-- A pass of the decryption loop reads the halves that F was taken of, so it finds the same F (42_twofish.md R155). -/
@[simp] theorem tfDecRound_tfEncRound (K : Words 40) (S : Words 4) (r : Nat) (R : Words 4) :
    tfDecRound K S r (tfEncRound K S r R) = R := by
  refine Eq.trans ?_ (vector4_eta R)
  simp [tfDecRound, tfEncRound]

theorem tfDecRounds_tfEncRounds (K : Words 40) (S : Words 4) (n : Nat) (R : Words 4) :
    tfDecRounds K S n (tfEncRounds K S n R) = R := by
  induction n with
  | zero => rfl
  | succ n ih => rw [tfDecRounds, tfEncRounds, tfDecRound_tfEncRound, ih]

theorem getElem_blockWords (b : Block) {k : Nat} (hk : k < 4) : (blockWords b)[k] = le32 b (4 * k) := by
  match k, hk with
  | 0, _ | 1, _ | 2, _ | 3, _ => rfl

theorem wordsToBytes_blockWords (b : Block) : wordsToBytes 16 (blockWords b) = b := by
  apply Vector.ext
  intro i hi
  have hk : i / 4 < 4 := by omega
  have hbyte : wordByte (le32 b (4 * (i / 4))) (i % 4) = byteAt b (4 * (i / 4) + i % 4) :=
    laneRead_le32 b (i / 4) (i % 4) (Nat.mod_lt i (by decide))
  simp [wordsToBytes, hk, getElem_blockWords, hbyte, Nat.div_add_mod, hi]

theorem byteAt_wordsToBytes (ws : Words 4) {k j : Nat} (hk : k < 4) (hj : j < 4) :
    byteAt (wordsToBytes 16 ws) (4 * k + j) = wordByte ws[k] j := by
  have hword : (4 * k + j) / 4 = k := by omega
  have hbyte : (4 * k + j) % 4 = j := by omega
  rw [byteAt_of_lt _ (by omega), wordsToBytes]
  simp [hword, hbyte, hk]

theorem le32_wordsToBytes (ws : Words 4) {k : Nat} (hk : k < 4) : le32 (wordsToBytes 16 ws) (4 * k) = ws[k] := by
  have h0 : byteAt (wordsToBytes 16 ws) (4 * k) = wordByte ws[k] 0 := byteAt_wordsToBytes ws hk (by decide : 0 < 4)
  rw [le32, h0, byteAt_wordsToBytes ws hk (by decide), byteAt_wordsToBytes ws hk (by decide),
    byteAt_wordsToBytes ws hk (by decide), wordOf_wordByte]

theorem blockWords_wordsToBytes (ws : Words 4) : blockWords (wordsToBytes 16 ws) = ws := by
  apply Vector.ext
  intro k hk
  rw [getElem_blockWords _ hk, le32_wordsToBytes ws hk]

/-- The XOR with the subkeys i to i + 3 before and after the rounds (42_twofish.md R154). -/
def whiten (K : Words 40) (i : Nat) (R : Words 4) : Words 4 :=
  #v[R[0] ^^^ subkey K i, R[1] ^^^ subkey K (i + 1), R[2] ^^^ subkey K (i + 2), R[3] ^^^ subkey K (i + 3)]

@[simp] theorem whiten_whiten (K : Words 40) (i : Nat) (R : Words 4) : whiten K i (whiten K i R) = R := by
  refine Eq.trans ?_ (vector4_eta R)
  simp [whiten]

/-- The two halves of the block exchanged, as the last pass leaves them (42_twofish.md R154, R155). -/
def swapHalves (R : Words 4) : Words 4 := #v[R[2], R[3], R[0], R[1]]

@[simp] theorem swapHalves_swapHalves (R : Words 4) : swapHalves (swapHalves R) = R := vector4_eta R

/-- Stated apart from `tfEncrypt_eq`, for any R, so that no defeq check there compares R with its swap and runs the rounds. -/
theorem whiten_swapHalves (K : Words 40) (i : Nat) (R : Words 4) : whiten K i (swapHalves R) =
    #v[R[2] ^^^ subkey K i, R[3] ^^^ subkey K (i + 1), R[0] ^^^ subkey K (i + 2), R[1] ^^^ subkey K (i + 3)] := rfl

/-- TF_Encrypt step by step (42_twofish.md R154). -/
theorem tfEncrypt_eq (K : Words 40) (S : Words 4) (b : Block) :
    tfEncrypt K S b =
      wordsToBytes 16 (whiten K 4 (swapHalves (tfEncRounds K S 16 (whiten K 0 (blockWords b))))) := by
  rw [whiten_swapHalves]
  unfold tfEncrypt
  rfl

/-- TF_Decrypt step by step (42_twofish.md R155). -/
theorem tfDecrypt_eq (K : Words 40) (S : Words 4) (b : Block) :
    tfDecrypt K S b =
      wordsToBytes 16 (whiten K 0 (tfDecRounds K S 16 (swapHalves (whiten K 4 (blockWords b))))) := by
  unfold tfDecrypt
  rfl

/-- Settles O48: both whitenings cancel, and the sixteen rounds between them are undone from the last to the first. -/
theorem twofishDecryptUndoesEncrypt : Obligations.TwofishDecryptUndoesEncrypt := by
  intro K S b
  rw [tfDecrypt_eq, tfEncrypt_eq, blockWords_wordsToBytes, whiten_whiten, swapHalves_swapHalves,
    tfDecRounds_tfEncRounds, whiten_whiten, wordsToBytes_blockWords]

end Sys2Proof.Machine

/-! ## The permutations q0 and q1 and the S-boxes of Twofish -/

namespace Sys2Proof.Machine

open Sys2Proof Sys2Proof.Spec

/-- Where a byte stands in a table of rows: the left inverse of `tableEntry` when no entry comes twice. The search
compares natural numbers, which the kernel does faster than bytes. -/
def tableIndex (t : List (List Byte)) (y : Byte) : Byte := BitVec.ofNat 8 ((t.flatten.map BitVec.toNat).idxOf y.toNat)

theorem tableIndex_q0 : ∀ x : Byte, tableIndex q0Table (q0 x) = x := by decide +kernel

theorem tableIndex_q1 : ∀ x : Byte, tableIndex q1Table (q1 x) = x := by decide +kernel

theorem bijective_q0 : Function.Bijective q0 :=
  (Function.LeftInverse.injective (g := tableIndex q0Table) tableIndex_q0).bijective_of_finite

theorem bijective_q1 : Function.Bijective q1 :=
  (Function.LeftInverse.injective (g := tableIndex q1Table) tableIndex_q1).bijective_of_finite

theorem q0_eq_q0Of : ∀ x : Byte, q0 x = q0Of x := by decide +kernel

theorem q1_eq_q1Of : ∀ x : Byte, q1 x = q1Of x := by decide +kernel

/-- Settles O51: the bytes are compared one by one, and a byte's place in the table gives it back. -/
theorem qTablesFollowTheConstruction : Obligations.QTablesFollowTheConstruction :=
  ⟨fun x => ⟨q0_eq_q0Of x, q1_eq_q1Of x⟩, bijective_q0, bijective_q1⟩

theorem bijective_xor_after {q : Byte → Byte} (hq : Function.Bijective q) (l : Byte) :
    Function.Bijective fun x => q x ^^^ l :=
  (xor_left_involutive l).bijective.comp hq

/-- Five permutations with a key byte XORed in between each and the next are a permutation (42_twofish.md R149). -/
theorem bijective_keyed_stages {p₀ p₁ p₂ p₃ p₄ : Byte → Byte} (h₀ : Function.Bijective p₀) (h₁ : Function.Bijective p₁)
    (h₂ : Function.Bijective p₂) (h₃ : Function.Bijective p₃) (h₄ : Function.Bijective p₄) (l₀ l₁ l₂ l₃ : Byte) :
    Function.Bijective fun x => p₄ (p₃ (p₂ (p₁ (p₀ x ^^^ l₃) ^^^ l₂) ^^^ l₁) ^^^ l₀) :=
  h₄.comp <| (bijective_xor_after h₃ l₀).comp <| (bijective_xor_after h₂ l₁).comp <|
    (bijective_xor_after h₁ l₂).comp <| bijective_xor_after h₀ l₃

theorem bijective_tfSbox (S : Words 4) {j : Nat} (hj : j < 4) : Function.Bijective (tfSbox S j) := by
  match j, hj with
  | 0, _ => exact bijective_keyed_stages bijective_q1 bijective_q1 bijective_q0 bijective_q0 bijective_q1 _ _ _ _
  | 1, _ => exact bijective_keyed_stages bijective_q0 bijective_q1 bijective_q1 bijective_q0 bijective_q0 _ _ _ _
  | 2, _ => exact bijective_keyed_stages bijective_q0 bijective_q0 bijective_q0 bijective_q1 bijective_q1 _ _ _ _
  | 3, _ => exact bijective_keyed_stages bijective_q1 bijective_q0 bijective_q1 bijective_q1 bijective_q0 _ _ _ _

/-- h's stages over (S_3, S_2, S_1, S_0), byte by byte, are the four S-boxes (42_twofish.md R148, R149). -/
theorem tfG_eq_mdsMul_tfSbox (S : Words 4) (X : Word) :
    tfG S X = mdsMul (tfSbox S 0 (wordByte X 0)) (tfSbox S 1 (wordByte X 1)) (tfSbox S 2 (wordByte X 2))
      (tfSbox S 3 (wordByte X 3)) := rfl

/-- Settles O52. -/
theorem twofishSboxesArePermutations : Obligations.TwofishSboxesArePermutations :=
  fun S => ⟨tfG_eq_mdsMul_tfSbox S, fun _ hj => bijective_tfSbox S hj⟩

end Sys2Proof.Machine

/-! ## The Twofish key schedule -/

namespace Sys2Proof.Machine

open Sys2Proof Sys2Proof.Spec

/-- Settles O33: KEY_LOAD.TF is the block ciphers' KEY_LOAD, with the Twofish context as what it loads. -/
theorem keyLoadTfLoadsTheSchedule : Obligations.KeyLoadTfLoadsTheSchedule :=
  blockKeyLoad_of_exec (load := loadTf) (fun _ _ => rfl) fun _ => rfl

/-- Byte r of the product is row r times the vector (42_twofish.md R145, R146). -/
theorem wordByte_matrixWord (P : BitVec 9) (m : List (List Byte)) (v : List Byte) {r : Nat} (hr : r < 4) :
    wordByte (matrixWord P m v) r = gfDot P (m.getD r []) v := by
  obtain ⟨h0, h1, h2, h3⟩ := wordByte_wordOf (gfDot P (m.getD 0 []) v) (gfDot P (m.getD 1 []) v)
    (gfDot P (m.getD 2 []) v) (gfDot P (m.getD 3 []) v)
  match r, hr with
  | 0, _ => exact h0
  | 1, _ => exact h1
  | 2, _ => exact h2
  | 3, _ => exact h3

theorem toList_slice {m : Nat} (x : Bytes m) (i n : Nat) :
    (slice x i n).toList = (List.range n).map fun j => byteAt x (i + j) := by
  apply List.ext_getElem
  · simp
  · intro j hj _
    simp

theorem getElem_tfSWords (K : Bytes 32) (i : Fin 4) : (tfSWords K)[i] = rsWord K i := by
  unfold tfSWords
  match i with
  | 0 | 1 | 2 | 3 => rfl

/-- The subkeys 2i and 2i + 1 are the pair i (42_twofish.md R152). -/
theorem subkey_tfSubkeys (K : Bytes 32) {i : Nat} (hi : i < 20) :
    subkey (tfSubkeys K) (2 * i) = (subkeyPair K i).1 ∧ subkey (tfSubkeys K) (2 * i + 1) = (subkeyPair K i).2 := by
  have heven : 2 * i < 40 := by omega
  have hodd : 2 * i + 1 < 40 := by omega
  have hhalf : (2 * i + 1) / 2 = i := by omega
  unfold tfSubkeys
  simp [subkey, heven, hodd, hhalf]

/-- Settles O34, from the RS rows and the pairs. -/
theorem twofishKeyMaterial : Obligations.TwofishKeyMaterial := by
  refine fun K => ⟨fun i r hr => ?sword, fun i hi => subkey_tfSubkeys K hi⟩
  case sword => rw [getElem_tfSWords, rsWord, wordByte_matrixWord _ _ _ hr, toList_slice]

end Sys2Proof.Machine

/-! ## What a step can leave in the core -/

namespace Sys2Proof.Machine

open Sys2Proof

/-- What a step can make of the core's own fields: the reset values, other contents of the data registers (perhaps the same),
or what Execute(w) answers (20_memory.md R51 to R58, 70_reset_and_hazards.md R250). -/
def CoreStep (s t : State) : Prop :=
  t.SameCore State.reset ∨
  (∃ k n v d, t.SameCore { s with key := k, nonce := n, iv := v, din := d }) ∨
  ∃ w l u, executeWord w { s with inputs := l } = .next u ∧ t.SameCore u

theorem coreStep_withData (s : State) (k : Bytes 32) (n : Bytes 8) (v : Bytes 16) (d : Bytes 64) :
    CoreStep s { s with key := k, nonce := n, iv := v, din := d } := .inr (.inl ⟨k, n, v, d, rfl⟩)

theorem CoreStep.of_sameCore {s t : State} (h : t.SameCore s) : CoreStep s t := .inr (.inl ⟨_, _, _, _, h⟩)

/-- The bus response is no field of the core. -/
theorem CoreStep.respond {s t : State} (h : CoreStep s t) (b : BusResponse) : CoreStep s (respond b t) := by
  obtain h | ⟨k, n, v, d, h⟩ | ⟨w, l, u, hw, h⟩ := h
  · exact .inl (h.withOutside _ _)
  · exact .inr (.inl ⟨k, n, v, d, h.withOutside _ _⟩)
  · exact .inr (.inr ⟨w, l, u, hw, h.withOutside _ _⟩)

/-- The inputs are no field of the core. -/
theorem CoreStep.of_withInputs {s t : State} {l : List Input} (h : CoreStep { s with inputs := l } t) : CoreStep s t := by
  obtain h | ⟨k, n, v, d, h⟩ | h := h
  · exact .inl h
  · exact .inr (.inl ⟨k, n, v, d, h⟩)
  · exact .inr (.inr h)

theorem writeReg_coreStep {v : Word} {r : Reg} {s t : State} (h : writeReg v s r = .next t) : CoreStep s t := by
  cases r with
  | cmd => exact .inr (.inr ⟨v, s.inputs, t, h, rfl⟩)
  | key k | nonce k | iv k | din k => cases h; exact coreStep_withData s _ _ _ _
  | status | sctr0 | sctr1 | dout k | reserved => cases h; exact .of_sameCore rfl

theorem serveAccess_coreStep {a : Access} {s t : State} (h : serveAccess a s = .next t) : CoreStep s t := by
  cases a with
  | read off width => cases h; exact .of_sameCore rfl
  | write off width v =>
    rw [serveAccess] at h
    split at h
    · obtain ⟨u, hu, rfl⟩ := respondTo_cases h
      exact (writeReg_coreStep hu).respond _
    · cases h; exact .of_sameCore rfl

theorem leaveReset_coreStep (s : State) : CoreStep s (leaveReset s) := by
  unfold leaveReset
  split
  · exact .of_sameCore rfl
  · exact .inl rfl

theorem serveInput_coreStep {i : Input} {s t : State} (h : serveInput i s = .next t) : CoreStep s t := by
  cases i with
  | access a => exact serveAccess_coreStep h
  | resetLow => cases h; exact .inl (enterReset_sameCore s)
  | resetDuring a => cases h; exact .inl (enterReset_sameCore s)
  | resetHigh => cases h; exact leaveReset_coreStep s

theorem step_coreStep {s t : State} (h : step s = .next t) : CoreStep s t := by
  rw [step] at h
  split at h
  · cases h; exact .of_sameCore rfl
  · exact (serveInput_coreStep h).of_withInputs

end Sys2Proof.Machine

/-! ## The Salsa20 constants -/

namespace Sys2Proof.Machine

open Sys2Proof Sys2Proof.Spec

section Diagonal

variable {s t : State}

theorem State.SameCore.salsaDiagonal (h : s.SameCore t) (ht : t.SalsaDiagonal) : s.SalsaDiagonal := by
  rw [h]
  exact ht

variable (hs : s.SalsaDiagonal)

include hs

theorem State.SalsaDiagonal.raiseError (op : BitVec 8) (e : ErrCode) : (raiseError op e s).SalsaDiagonal := by
  simpa [State.SalsaDiagonal] using hs

/-- A load lays the constants out, SALSA_PROCESS moves the counter words alone, and no other command writes the context
without clearing it. -/
theorem effect_salsaDiagonal (i : Instr) : (effect i s).SalsaDiagonal := by
  cases i with
  | keyLoadSalsa len nlen => exact fun _ => ⟨rfl, rfl, rfl, rfl⟩
  | keyLoadSalsaGen len => exact fun _ => ⟨rfl, rfl, rfl, rfl⟩
  | salsaProcess =>
    intro hready
    obtain ⟨h0, h5, h10, h15⟩ := hs hready
    simp [effect, getElem_counterInc_of_ne, h0, h5, h10, h15]
  | zeroize => exact nofun
  | _ => exact hs

theorem exec_salsaDiagonal {i : Instr} (h : exec i s = .next t) : t.SalsaDiagonal := by
  obtain ⟨-, rfl⟩ | ⟨-, rfl⟩ := exec_cases h
  · exact hs.raiseError _ _
  · exact effect_salsaDiagonal hs i

theorem executeWord_salsaDiagonal {w : Word} (h : executeWord w s = .next t) : t.SalsaDiagonal := by
  rw [executeWord] at h
  split at h
  · exact exec_salsaDiagonal hs h
  · cases h; exact hs.raiseError _ _

end Diagonal

/-- Settles O23: reset clears the context, no data register is part of it, and a word written to CMD keeps the constants. -/
theorem stepKeepsTheSalsaConstants : Obligations.StepKeepsTheSalsaConstants := by
  intro s t hs h
  obtain h | ⟨k, n, v, d, h⟩ | ⟨w, l, u, hw, h⟩ := step_coreStep h
  · exact h.salsaDiagonal nofun
  · exact h.salsaDiagonal hs
  · have hu : u.SalsaDiagonal := executeWord_salsaDiagonal (s := { s with inputs := l }) hs hw
    exact h.salsaDiagonal hu

end Sys2Proof.Machine

/-! ## KEY_LOAD.SALSA and KEY_LOAD.SALSA.GEN -/

namespace Sys2Proof.Machine

open Sys2Proof Sys2Proof.Spec

theorem salsaLoaded_salsaLayout (K : Bytes 32) (N : Bytes 8) : SalsaLoaded K N (salsaLayout K N 0 0) :=
  ⟨rfl, rfl, rfl, rfl, rfl, rfl, rfl, rfl, rfl, rfl, rfl, rfl, rfl, rfl, rfl, rfl⟩

/-- A command whose first error is `e` raises it. -/
theorem exec_of_firstError {i : Instr} {e : ErrCode} {s : State} (h : firstError i s = e) (he : e ≠ .ok) :
    exec i s = .next (raiseError (opOf i) e s) := by
  rw [exec_eq_conclude, conclude, h, if_neg he]

/-- A command without an error completes. -/
theorem exec_of_firstError_ok {i : Instr} {s : State} (h : firstError i s = .ok) :
    exec i s = .next (complete (outputOf i s) (effect i s)) := by
  rw [exec_eq_conclude, conclude, if_pos h]

/-- A failing command of no CBC opcode writes the result fields alone (40_command.md R94, R95). -/
theorem exists_failed_of_firstError {i : Instr} {e : ErrCode} {s : State} (hi : isCbcCommand i = false)
    (h : firstError i s = e) (he : e ≠ .ok) : ∃ t, exec i s = .next t ∧ Failed e s t :=
  ⟨_, exec_of_firstError h he, failed_raiseError ((isCbcOp_opOf i).trans hi) e s⟩

/-- Settles O35: the length checks of the two commands, and the layout that a load without an error writes. -/
theorem keyLoadSalsaSeedsTheState : Obligations.KeyLoadSalsaSeedsTheState := by
  refine fun s => ⟨fun len nlen hl => ?suppliedFails, ?supplied, fun len hl => ?generatedFails, ?generated⟩
  case suppliedFails => exact exists_failed_of_firstError rfl (if_pos hl) nofun
  case supplied =>
    exact ⟨_, exec_of_firstError_ok rfl, output_complete (out := []) (Nat.zero_le 64) _, salsaLoaded_salsaLayout _ _, rfl⟩
  case generatedFails => exact exists_failed_of_firstError rfl (if_pos hl) nofun
  case generated =>
    refine ⟨_, exec_of_firstError_ok rfl, output_complete (out := []) (Nat.zero_le 64) _, salsaLoaded_salsaLayout _ _,
      fun j => ?drawn, rfl⟩
    case drawn => simp [effect, rngBytes]

end Sys2Proof.Machine

/-! ## The 64-bit block counter -/

namespace Sys2Proof.Machine

open Sys2Proof Sys2Proof.Spec

/-- The block counter `{sx[9], sx[8]}` (43_salsa20.md R178). -/
def blockCounter (x : Words 16) : BitVec 64 := x[9] ++ x[8]

theorem toNat_word_append (hi lo : Word) : (hi ++ lo : BitVec 64).toNat = hi.toNat * 2 ^ 32 + lo.toNat := by
  rw [BitVec.toNat_append, ← Nat.shiftLeft_add_eq_or_of_lt lo.isLt, Nat.shiftLeft_eq]

@[simp] theorem atCounter_low (x : Words 16) (n : Nat) : (atCounter x n)[8] = BitVec.ofNat 32 n := by
  simp [atCounter]

@[simp] theorem atCounter_high (x : Words 16) (n : Nat) : (atCounter x n)[9] = BitVec.ofNat 32 (n / 2 ^ 32) := by
  simp [atCounter]

theorem getElem_atCounter_of_ne (x : Words 16) (n : Nat) {j : Nat} (hj : j < 16) (h8 : j ≠ 8) (h9 : j ≠ 9) :
    (atCounter x n)[j] = x[j] := by
  simp [atCounter, Vector.getElem_set_ne, h8.symm, h9.symm]

/-- A state that stands at the count n and agrees with x outside the counter. -/
theorem eq_atCounter {x y : Words 16} {n : Nat} (h8 : y[8] = BitVec.ofNat 32 n) (h9 : y[9] = BitVec.ofNat 32 (n / 2 ^ 32))
    (hrest : ∀ j, (hj : j < 16) → j ≠ 8 → j ≠ 9 → y[j] = x[j]) : y = atCounter x n := by
  apply Vector.ext
  intro j hj
  by_cases hj8 : j = 8
  · subst hj8; rw [h8, atCounter_low]
  by_cases hj9 : j = 9
  · subst hj9; rw [h9, atCounter_high]
  · rw [hrest j hj hj8 hj9, getElem_atCounter_of_ne x n hj hj8 hj9]

theorem blockCounter_atCounter (x : Words 16) (n : Nat) : blockCounter (atCounter x n) = BitVec.ofNat 64 n := by
  apply BitVec.eq_of_toNat_eq
  rw [blockCounter, toNat_word_append, atCounter_low, atCounter_high]
  simp only [BitVec.toNat_ofNat]
  omega

/-- Every state stands at its own count. -/
theorem atCounter_blockCounter (x : Words 16) : atCounter x (blockCounter x).toNat = x := by
  have hcount : (blockCounter x).toNat = x[9].toNat * 2 ^ 32 + x[8].toNat := toNat_word_append _ _
  have hlow : x[8] = BitVec.ofNat 32 (blockCounter x).toNat := by
    apply BitVec.eq_of_toNat_eq
    rw [BitVec.toNat_ofNat, hcount]
    omega
  have hhigh : x[9] = BitVec.ofNat 32 ((blockCounter x).toNat / 2 ^ 32) := by
    apply BitVec.eq_of_toNat_eq
    rw [BitVec.toNat_ofNat, hcount]
    omega
  exact (eq_atCounter hlow hhigh fun _ _ _ _ => rfl).symm

/-- The high word of the next count: the carry is there exactly when the low word wraps to 0. -/
theorem ofNat_succ_div_two_pow (n : Nat) : BitVec.ofNat 32 ((n + 1) / 2 ^ 32) =
    if BitVec.ofNat 32 (n + 1) = 0 then BitVec.ofNat 32 (n / 2 ^ 32) + 1 else BitVec.ofNat 32 (n / 2 ^ 32) := by
  have hwrap : BitVec.ofNat 32 (n + 1) = 0 ↔ (n + 1) % 2 ^ 32 = 0 := by rw [← BitVec.toNat_inj]; rfl
  simp only [hwrap]
  split
  · have hdiv : (n + 1) / 2 ^ 32 = n / 2 ^ 32 + 1 := by omega
    rw [hdiv, BitVec.ofNat_add]; rfl
  · have hdiv : (n + 1) / 2 ^ 32 = n / 2 ^ 32 := by omega
    rw [hdiv]

theorem counterInc_low (x : Words 16) : (counterInc x)[8] = x[8] + 1 := by simp [counterInc]

theorem counterInc_high (x : Words 16) : (counterInc x)[9] = if x[8] + 1 = 0 then x[9] + 1 else x[9] := by
  simp [counterInc]

theorem counterInc_atCounter (x : Words 16) (n : Nat) : counterInc (atCounter x n) = atCounter x (n + 1) := by
  have hsucc : BitVec.ofNat 32 n + 1 = BitVec.ofNat 32 (n + 1) := (BitVec.ofNat_add n 1).symm
  refine eq_atCounter ?low ?high fun j hj h8 h9 => ?rest
  case low => rw [counterInc_low, atCounter_low, hsucc]
  case high => rw [counterInc_high, atCounter_low, atCounter_high, hsucc, ofNat_succ_div_two_pow]
  case rest => rw [getElem_counterInc_of_ne _ hj h8 h9, getElem_atCounter_of_ne _ _ hj h8 h9]

theorem blockCounter_counterInc (x : Words 16) : blockCounter (counterInc x) = blockCounter x + 1 := by
  rw [← atCounter_blockCounter x, counterInc_atCounter, blockCounter_atCounter, blockCounter_atCounter, BitVec.ofNat_add]
  rfl

end Sys2Proof.Machine

/-! ## SALSA_PROCESS -/

namespace Sys2Proof.Machine

open Sys2Proof Sys2Proof.Spec

theorem slice_zero_self {n : Nat} (b : Bytes n) : slice b 0 n = b := by
  simpa only [fillTo_toList] using slice_fillTo b le_rfl

/-- The state once SALSA_PROCESS has processed the unit in DIN (43_salsa20.md R180, R182). -/
def afterUnit (s : State) : State :=
  { s with sx := counterInc s.sx, dout := xorBytes s.din (salsaBlock s.sx), outLen := 64, err := .ok }

theorem exec_salsaProcess {s : State} (h : s.salsaReady = true) : exec .salsaProcess s = .next (afterUnit s) := by
  have hfirst : firstError .salsaProcess s = .ok := by simp [firstError, h]
  rw [exec_of_firstError_ok hfirst]
  simp [afterUnit, complete, outputOf, effect, fillTo_toList, slice_zero_self]

/-- Settles O37: the one check, and the counter read as one number of 64 bits. -/
theorem salsaProcessXorsAndCounts : Obligations.SalsaProcessXorsAndCounts := by
  refine fun s => ⟨fun hr => ?unloaded, fun hr => ?loaded⟩
  case unloaded => exact exists_failed_of_firstError rfl (if_pos hr) nofun
  case loaded =>
    exact ⟨_, exec_salsaProcess hr, rfl, rfl, fun j => getElem_xorBytes _ _ j.isLt, blockCounter_counterInc s.sx,
      fun j => getElem_counterInc_of_ne s.sx j.isLt, rfl⟩

end Sys2Proof.Machine

/-! ## Two Salsa20 cores in lockstep -/

namespace Sys2Proof.Machine

open Sys2Proof Sys2Proof.Spec

theorem processUnits_cons {s : State} (h : s.salsaReady = true) (u : Bytes 64) (us : List (Bytes 64)) :
    processUnits (u :: us) s = xorBytes u (salsaBlock s.sx) :: processUnits us (afterUnit { s with din := u }) := by
  have hexec := exec_salsaProcess (s := { s with din := u }) h
  rw [processUnits, hexec]
  rfl

/-- The units from counter n on, each XORed with its own keystream block (43_salsa20.md R180). -/
theorem processUnits_eq_mapIdx {x : Words 16} (us : List (Bytes 64)) {n : Nat} {s : State} (hr : s.salsaReady = true)
    (hx : s.sx = atCounter x n) :
    processUnits us s = us.mapIdx fun i u => xorBytes u (salsaBlock (atCounter x (n + i))) := by
  induction us generalizing n s with
  | nil => rfl
  | cons u us ih =>
    have hnext : (afterUnit { s with din := u }).sx = atCounter x (n + 1) := by
      rw [← counterInc_atCounter, ← hx]
      rfl
    rw [processUnits_cons hr, ih (s := afterUnit { s with din := u }) hr hnext, hx, List.mapIdx_cons]
    simp only [Nat.add_zero, Nat.add_assoc, Nat.add_comm 1]

@[simp] theorem xorBytes_xorBytes {n : Nat} (a k : Bytes n) : xorBytes (xorBytes a k) k = a := by
  apply Vector.ext
  intro i hi
  simp

/-- Either load leaves the layout of KEY and of the nonce that then stands in NONCE, at counter 0 (43_salsa20.md R181). -/
theorem loaded_of_exec {load : Instr} {s t : State} (hl : load = .keyLoadSalsa 32 8 ∨ load = .keyLoadSalsaGen 32)
    (h : exec load s = .next t) : t.salsaReady = true ∧ t.sx = salsaLayout s.key t.nonce 0 0 := by
  obtain rfl | rfl := hl <;> (obtain rfl := eq_complete_of_exec h rfl; exact ⟨rfl, rfl⟩)

/-- Settles O53: both cores hold the same layout at counter 0, so unit i meets the same keystream block twice. -/
theorem salsaLockstep : Obligations.SalsaLockstep := by
  intro loadA loadB a b a' b' xs hA hB ha hb hkey hnonce
  obtain ⟨hra, hxa⟩ := loaded_of_exec hA ha
  obtain ⟨hrb, hxb⟩ := loaded_of_exec hB hb
  have hsame : b'.sx = a'.sx := by rw [hxa, hxb, hkey, hnonce]
  have hzero : a'.sx = atCounter a'.sx 0 := by rw [hxa]; rfl
  have hfirst := processUnits_eq_mapIdx xs hra hzero
  have hsecond := processUnits_eq_mapIdx (processUnits xs a') hrb (hsame.trans hzero)
  refine ⟨fun i => ?unit, fun i => by rw [hsame], ?undone⟩
  case unit => rw [hfirst, List.getElem?_mapIdx, Nat.zero_add]
  case undone =>
    rw [hsecond, hfirst, List.mapIdx_mapIdx]
    exact List.ext_getElem (by simp) fun i _ _ => by simp

end Sys2Proof.Machine

/-! ## The mode context and its writers -/

namespace Sys2Proof.Machine

open Sys2Proof Sys2Proof.Spec

/-- A failing CBC command writes the result fields and closes the stream (40_command.md R94, R95). -/
theorem exists_failedAborting_of_firstError {i : Instr} {e : ErrCode} {s : State} (hi : isCbcCommand i = true)
    (h : firstError i s = e) (he : e ≠ .ok) : ∃ t, exec i s = .next t ∧ FailedAborting e s t :=
  ⟨_, exec_of_firstError h he, failedAborting_raiseError ((isCbcOp_opOf i).trans hi) e s⟩

theorem effect_stream {i : Instr} (s : State) (hc : isCbcCommand i = false) (hz : i ≠ .zeroize) :
    (effect i s).strm = s.strm ∧ (effect i s).strmSel = s.strmSel ∧ (effect i s).chain = s.chain ∧
    (effect i s).held = s.held ∧ (effect i s).heldValid = s.heldValid := by
  cases i with
  | zeroize => exact absurd rfl hz
  | cbcEncStartAes | cbcEncStartTf | cbcEncUpdate | cbcEncFinal => cases hc
  | cbcDecStartAes | cbcDecStartTf | cbcDecUpdate | cbcDecFinal | cbcAbort => cases hc
  | _ => exact ⟨rfl, rfl, rfl, rfl, rfl⟩

/-- Settles O30: outside the CBC opcodes a failure writes the result fields alone and no effect reaches the mode context; the
open stream is the first thing that KEY_LOAD checks. -/
theorem otherCommandsLeaveTheStream : Obligations.OtherCommandsLeaveTheStream := by
  refine ⟨fun i s t hc hz h => ?kept, fun s len hs => ⟨fun hsel => ?aes, fun hsel => ?tf⟩⟩
  case kept =>
    obtain ⟨-, rfl⟩ | ⟨-, rfl⟩ := exec_cases h
    · rw [raiseError_of_not_cbc ((isCbcOp_opOf i).trans hc)]
      exact ⟨rfl, rfl, rfl, rfl, rfl⟩
    · exact effect_stream s hc hz
  case aes => exact exists_failed_of_firstError rfl (if_pos ⟨hs, hsel⟩) nofun
  case tf => exact exists_failed_of_firstError rfl (if_pos ⟨hs, hsel⟩) nofun

end Sys2Proof.Machine

/-! ## ECB -/

namespace Sys2Proof.Machine

open Sys2Proof Sys2Proof.Spec

theorem fillTo_take (n : Nat) (l : List Byte) : fillTo n (l.take n) = fillTo n l := by
  apply Vector.ext
  intro i hi
  simp [hi]

/-- A string that is long enough fills a shorter one with its first bytes. -/
theorem toList_fillTo_of_le {n : Nat} {l : List Byte} (h : n ≤ l.length) : (fillTo n l).toList = l.take n := by
  rw [← fillTo_take, toList_fillTo _ (List.length_take_le n l), List.length_take_of_le h, Nat.sub_self]
  exact List.append_nil _

/-- A block at the front of any string (44_modes.md R192). -/
theorem fillTo_toList_append (b : Block) (l : List Byte) : fillTo 16 (b.toList ++ l) = b := by
  rw [← fillTo_take, List.take_left' (by simp), fillTo_toList]

theorem blockAt_zero (l : List Byte) : blockAt l 0 = fillTo 16 l := rfl

theorem blockAt_succ (l : List Byte) (i : Nat) : blockAt l (i + 1) = blockAt (l.drop 16) i := by
  rw [blockAt, blockAt, List.drop_drop, Nat.mul_succ, Nat.add_comm]

theorem blockAt_append_zero (b : Block) (l : List Byte) : blockAt (b.toList ++ l) 0 = b := fillTo_toList_append b l

theorem blockAt_append_succ (b : Block) (l : List Byte) (i : Nat) : blockAt (b.toList ++ l) (i + 1) = blockAt l i := by
  rw [blockAt_succ, List.drop_left' (by simp)]

/-- The first block through f, then the rest of the buffer (44_modes.md R192). -/
theorem ecbBlocks_succ (f : Block → Block) (n : Nat) (buf : List Byte) :
    ecbBlocks f (n + 1) buf = (f (blockAt buf 0)).toList ++ ecbBlocks f n (buf.drop 16) := by
  rw [ecbBlocks, fillTo_take, blockAt_zero]

/-- Block i of the transform is the transform of block i (44_modes.md R192). -/
theorem blockAt_ecbBlocks (f : Block → Block) {n i : Nat} (hi : i < n) (buf : List Byte) :
    blockAt (ecbBlocks f n buf) i = f (blockAt buf i) := by
  induction n generalizing i buf with
  | zero => exact absurd hi (Nat.not_lt_zero i)
  | succ n ih =>
    rw [ecbBlocks_succ]
    cases i with
    | zero => exact blockAt_append_zero _ _
    | succ i => rw [blockAt_append_succ, ih (Nat.lt_of_succ_lt_succ hi), blockAt_succ]

theorem ecbBlocks_append (f : Block → Block) {m : Nat} (n : Nat) {a : List Byte} (b : List Byte) (h : a.length = 16 * m) :
    ecbBlocks f (m + n) (a ++ b) = ecbBlocks f m a ++ ecbBlocks f n b := by
  induction m generalizing a with
  | zero =>
    obtain rfl : a = [] := List.length_eq_zero_iff.1 h
    rw [Nat.zero_add]
    rfl
  | succ m ih =>
    have hfirst : blockAt (a ++ b) 0 = blockAt a 0 := by
      rw [blockAt_zero, ← fillTo_take, List.take_append_of_le_length (by omega), fillTo_take, blockAt_zero]
    rw [Nat.add_right_comm, ecbBlocks_succ, ecbBlocks_succ, hfirst, List.drop_append_of_le_length (by omega),
      ih (by rw [List.length_drop]; omega), List.append_assoc]

/-- A block function that f undoes is undone on every whole block of a buffer. -/
theorem ecbBlocks_ecbBlocks {f g : Block → Block} (hgf : ∀ b, g (f b) = b) {n : Nat} {buf : List Byte}
    (h : buf.length = 16 * n) : ecbBlocks g n (ecbBlocks f n buf) = buf := by
  induction n generalizing buf with
  | zero => exact (List.length_eq_zero_iff.1 h).symm
  | succ n ih =>
    rw [ecbBlocks_succ f, ecbBlocks_succ g, blockAt_append_zero, hgf, List.drop_left' (by simp),
      ih (by rw [List.length_drop]; omega), blockAt_zero, toList_fillTo_of_le (by omega), List.take_append_drop]

theorem ecbBuffer_ecbBuffer {f g : Block → Block} (hgf : ∀ b, g (f b) = b) {buf : List Byte} (h : buf.length % 16 = 0) :
    ecbBuffer g (ecbBuffer f buf) = buf := by
  rw [ecbBuffer, length_ecbBuffer f buf h, ecbBuffer]
  exact ecbBlocks_ecbBlocks hgf (by omega)

/-- Settles O55: block by block, through the first buffer. -/
theorem ecbSplitsAtBlockBoundaries : Obligations.EcbSplitsAtBlockBoundaries := by
  intro f a b ha hb
  have hab : (a ++ b).length = a.length + b.length := List.length_append
  refine ⟨?_, length_ecbBuffer f (a ++ b) (by omega)⟩
  have hsum : (a ++ b).length / 16 = a.length / 16 + b.length / 16 := by omega
  rw [ecbBuffer, hsum]
  exact ecbBlocks_append f _ b (by omega)

/-- A block of a register is the same block of any buffer over its first bytes that reaches so far. -/
theorem blockAt_dinBuffer (s : State) {len i : Nat} (h : 16 * i + 16 ≤ len) (hlen : len ≤ 64) :
    blockAt (dinBuffer s len) i = slice s.din (16 * i) 16 := by
  apply Vector.ext
  intro j hj
  have hl : 16 * i + j < len := by omega
  have hd : 16 * i + j < 64 := by omega
  simp [blockAt, dinBuffer, hl, hd]

theorem slice_fillTo_block (l : List Byte) {i : Nat} (h : 16 * i + 16 ≤ 64) : slice (fillTo 64 l) (16 * i) 16 = blockAt l i := by
  apply Vector.ext
  intro j hj
  have hd : 16 * i + j < 64 := by omega
  simp [blockAt, hd]

/-- What every ECB command does, under an opcode that aborts no stream (40_command.md R95, R97, R99). -/
theorem ecbCommand_of_exec {i : Nat → Instr} {op : BitVec 8} {c : CipherSel} {f : State → Block → Block}
    (hop : isCbcOp op = false) (hexec : ∀ len s, exec (i len) s = .next (runEcb op c (f s) len s)) : EcbCommand i c f := by
  intro s len
  rw [hexec, runEcb_eq_conclude]
  refine ⟨fun hk => ?unkeyed, fun hk => ⟨fun hl => ?length, fun hl => ?keyed⟩⟩
  case unkeyed =>
    rw [if_pos hk]
    exact ⟨_, rfl, failed_raiseError hop _ s⟩
  case length =>
    rw [hk, if_neg nofun, if_pos (by omega)]
    exact ⟨_, rfl, failed_raiseError hop _ s⟩
  case keyed =>
    obtain ⟨hmod, hle⟩ := hl
    have hbuf : (dinBuffer s len).length = len := by rw [length_dinBuffer]; omega
    have hout : (ecbBuffer (f s) (dinBuffer s len)).length = len := by rw [length_ecbBuffer _ _ (by omega), hbuf]
    rw [hk, if_neg nofun, if_neg (by omega), conclude, if_pos rfl]
    obtain ⟨hok, houtLen, -⟩ := output_complete (hout.le.trans hle) s
    refine ⟨_, rfl, hok, houtLen.trans hout, fun b hb => ?block, fun j hj => ?tail, rfl⟩
    case block =>
      rw [complete_dout, slice_fillTo_block _ (by omega), ecbBuffer, hbuf, blockAt_ecbBlocks _ hb,
        blockAt_dinBuffer s (by omega) hle]
    case tail => simp [hout, hj]

/-- Settles O38: each of the four is the shared ECB command with its own cipher. -/
theorem ecbCommandsTransformEachBlock : Obligations.EcbCommandsTransformEachBlock :=
  ⟨ecbCommand_of_exec (op := 0x05) rfl fun _ _ => rfl, ecbCommand_of_exec (op := 0x05) rfl fun _ _ => rfl,
    ecbCommand_of_exec (op := 0x06) rfl fun _ _ => rfl, ecbCommand_of_exec (op := 0x06) rfl fun _ _ => rfl⟩

theorem blockDecrypt_blockEncrypt (s : State) (c : CipherSel) (b : Block) : blockDecrypt s c (blockEncrypt s c b) = b := by
  cases c with
  | aes => exact aesInvCipher_aesCipher s.aesRk b
  | tf => exact twofishDecryptUndoesEncrypt s.tfK s.tfS b

/-- An ECB command that ended OK passed both checks (40_command.md R97, R99). -/
theorem runEcb_of_err_ok {op : BitVec 8} {c : CipherSel} {f : Block → Block} {len : Nat} {s : State}
    (h : (runEcb op c f len s).err = .ok) : s.keyed c = true ∧ ecbLenOk len = true := by
  rcases runEcb_cases op c f len s with ⟨-, hr⟩ | ⟨-, -, hr⟩ | ⟨hk, hl, -⟩
  · rw [hr, raiseError_err] at h; cases h
  · rw [hr, raiseError_err] at h; cases h
  · exact ⟨hk, hl⟩

theorem runEcb_of_keyed {op : BitVec 8} {c : CipherSel} {f : Block → Block} {len : Nat} {s : State}
    (hk : s.keyed c = true) (hl : ecbLenOk len = true) : runEcb op c f len s = complete (ecbBuffer f (dinBuffer s len)) s := by
  simp [runEcb, hk, hl]

/-- With ECB_ENC's output in DIN and the same cipher context, ECB_DEC gives back the buffer that ECB_ENC read. -/
theorem runEcb_dec_of_encrypted {s t : State} {c : CipherSel} {len : Nat} (hk : t.keyed c = true) (hl : ecbLenOk len = true)
    (hD : blockDecrypt t c = blockDecrypt s c)
    (hdin : t.din = fillTo 64 (ecbBuffer (blockEncrypt s c) (dinBuffer s len))) :
    (runEcb 0x06 c (blockDecrypt t c) len t).err = .ok ∧
    (runEcb 0x06 c (blockDecrypt t c) len t).output = dinBuffer s len := by
  obtain ⟨hmod, hle⟩ : len % 16 = 0 ∧ len ≤ 64 := by simpa [ecbLenOk] using hl
  have hbuf : (dinBuffer s len).length = len := by rw [length_dinBuffer]; omega
  have hout : (ecbBuffer (blockEncrypt s c) (dinBuffer s len)).length = len := by
    rw [length_ecbBuffer _ _ (by omega), hbuf]
  have hread : dinBuffer t len = ecbBuffer (blockEncrypt s c) (dinBuffer s len) := by
    rw [dinBuffer, hdin, toList_fillTo _ (by omega), List.take_left' hout]
  rw [runEcb_of_keyed hk hl, hD, hread, ecbBuffer_ecbBuffer (blockDecrypt_blockEncrypt s c) (by omega)]
  exact ⟨rfl, complete_output (by omega) t⟩

/-- ECB_DEC after ECB_ENC, for either cipher: the commands differ in the cipher they name. -/
theorem runEcb_dec_of_enc {s t u : State} {c : CipherSel} {len : Nat}
    (ht : runEcb 0x05 c (blockEncrypt s c) len s = t) (hok : t.err = .ok)
    (hu : runEcb 0x06 c (blockDecrypt { t with din := t.dout } c) len { t with din := t.dout } = u) :
    u.err = .ok ∧ u.output = dinBuffer s len := by
  obtain rfl := ht
  obtain ⟨hk, hl⟩ := runEcb_of_err_ok hok
  rw [runEcb_of_keyed hk hl] at hu
  obtain rfl := hu
  exact runEcb_dec_of_encrypted (by cases c <;> exact hk) hl rfl rfl

/-- Settles O54. -/
theorem ecbDecryptUndoesEncrypt : Obligations.EcbDecryptUndoesEncrypt := by
  rintro s t u len enc dec (⟨rfl, rfl⟩ | ⟨rfl, rfl⟩) henc hok hdec
  · exact runEcb_dec_of_enc (c := .aes) (Host.Outcome.next.inj henc) hok (Host.Outcome.next.inj hdec)
  · exact runEcb_dec_of_enc (c := .tf) (Host.Outcome.next.inj henc) hok (Host.Outcome.next.inj hdec)

end Sys2Proof.Machine

/-! ## The CBC commands -/

namespace Sys2Proof.Machine

open Sys2Proof Sys2Proof.Spec

/-! The START commands of both ciphers at once. -/

section Start

variable (c : CipherSel) (gen : Bool) (len : Nat) (s : State)

theorem firstError_encStart : firstError (encStart c gen) s =
    if s.strm ≠ .idle ∨ s.keyed c = false then .sequenceError else .ok := by cases c <;> rfl

theorem effect_encStart : effect (encStart c gen) s = openEnc c (withIv gen s) := by cases c <;> rfl

theorem outputOf_encStart : outputOf (encStart c gen) s = (chosenIv gen s).toList := by cases c <;> rfl

theorem isCbcCommand_encStart : isCbcCommand (encStart c gen) = true := by cases c <;> rfl

theorem firstError_decStart : firstError (decStart c len) s =
    if s.strm ≠ .idle ∨ s.keyed c = false then .sequenceError
    else if len > 16 then .invalidLengthError else if len < 16 then .formatError else .ok := by cases c <;> rfl

theorem effect_decStart : effect (decStart c len) s = openDec c s := by cases c <;> rfl

theorem outputOf_decStart : outputOf (decStart c len) s = [] := by cases c <;> rfl

theorem isCbcCommand_decStart : isCbcCommand (decStart c len) = true := by cases c <;> rfl

end Start

/-- With no stream and a keyed cipher the checks of a START pass (40_command.md R97, R98). -/
theorem not_startRefused {c : CipherSel} {s : State} (hs : s.strm = .idle) (hk : s.keyed c = true) :
    ¬ (s.strm ≠ .idle ∨ s.keyed c = false) := by
  simp [hs, hk]

theorem exec_encStart {c : CipherSel} {s : State} (gen : Bool) (hs : s.strm = .idle) (hk : s.keyed c = true) :
    exec (encStart c gen) s = .next (complete (chosenIv gen s).toList (openEnc c (withIv gen s))) := by
  have hfirst : firstError (encStart c gen) s = .ok := by rw [firstError_encStart, if_neg (not_startRefused hs hk)]
  rw [exec_of_firstError_ok hfirst, outputOf_encStart, effect_encStart]

theorem output_block (b : Block) (s : State) : Output b.toList (complete b.toList s) := output_complete (by simp) s

theorem output_nil (s : State) : Output [] (complete [] s) := output_complete (out := []) (Nat.zero_le 64) s

theorem encStart_opensAStream (c : CipherSel) : EncStart (encStart c) c := by
  refine fun s => ⟨fun hc gen => ?refused, fun ⟨hs, hk⟩ => ⟨?supplied, ?generated⟩⟩
  case refused =>
    have hfirst := (firstError_encStart c gen s).trans (if_pos hc)
    exact exists_failedAborting_of_firstError (isCbcCommand_encStart c gen) hfirst nofun
  case supplied => exact ⟨_, exec_encStart false hs hk, output_block _ _, rfl⟩
  case generated =>
    refine ⟨_, exec_encStart true hs hk, output_block _ _, fun j => ?drawn, rfl⟩
    case drawn => simp [openEnc, withIv, chosenIv, rngBytes]

/-- Settles O39. -/
theorem cbcEncStartOpensAStream : Obligations.CbcEncStartOpensAStream :=
  ⟨encStart_opensAStream .aes, encStart_opensAStream .tf⟩

theorem exec_decStart {c : CipherSel} {s : State} (hs : s.strm = .idle) (hk : s.keyed c = true) :
    exec (decStart c 16) s = .next (complete [] (openDec c s)) := by
  have hfirst : firstError (decStart c 16) s = .ok := by rw [firstError_decStart, if_neg (not_startRefused hs hk)]; rfl
  rw [exec_of_firstError_ok hfirst, outputOf_decStart, effect_decStart]

theorem firstError_decStart_of_lt {c : CipherSel} {s : State} {len : Nat} (hs : s.strm = .idle) (hk : s.keyed c = true)
    (h : len < 16) : firstError (decStart c len) s = .formatError := by
  rw [firstError_decStart, if_neg (not_startRefused hs hk), if_neg (by omega), if_pos h]

theorem decStart_opensAStream (c : CipherSel) : DecStart (decStart c) c := by
  refine fun s len => ⟨fun hc => ?refused, fun ⟨hs, hk⟩ => ⟨fun hl => ?long, fun hl => ?short, fun hl => ?opened⟩⟩
  case refused =>
    have hfirst := (firstError_decStart c len s).trans (if_pos hc)
    exact exists_failedAborting_of_firstError (isCbcCommand_decStart c len) hfirst nofun
  case long =>
    have hfirst : firstError (decStart c len) s = .invalidLengthError := by
      rw [firstError_decStart, if_neg (not_startRefused hs hk), if_pos hl]
    exact exists_failedAborting_of_firstError (isCbcCommand_decStart c len) hfirst nofun
  case short =>
    exact exists_failedAborting_of_firstError (isCbcCommand_decStart c len) (firstError_decStart_of_lt hs hk hl) nofun
  case opened =>
    subst hl
    exact ⟨_, exec_decStart hs hk, output_nil _, rfl⟩

/-- Settles O42. -/
theorem cbcDecStartOpensAStream : Obligations.CbcDecStartOpensAStream :=
  ⟨decStart_opensAStream .aes, decStart_opensAStream .tf⟩

/-! The encryption stream. -/

theorem exec_cbcEncUpdate {s : State} (hs : s.strm = .enc) :
    exec (.cbcEncUpdate 16) s = .next (complete (nextCipherBlock s).toList { s with chain := nextCipherBlock s }) :=
  exec_of_firstError_ok (by simp [firstError, hs])

theorem exec_cbcEncFinal {s : State} {len : Nat} (hs : s.strm = .enc) (hl : len ≤ 15) :
    exec (.cbcEncFinal len) s =
      .next (complete (blockEncrypt s s.strmSel (xorBytes (pad (dinBuffer s len)) s.chain)).toList
        { s with strm := .idle, strmSel := .aes, chain := zeros 16 }) :=
  exec_of_firstError_ok (by simp [firstError, hs, Nat.not_lt.2 hl])

theorem getElem_pad (t : List Byte) {i : Nat} (hi : i < 16) :
    (pad t)[i] = if i < t.length then t.getD i 0 else BitVec.ofNat 8 (16 - t.length) := by
  simp [pad]

/-- The block that CBC_ENC_UPDATE encrypts, byte by byte. -/
theorem xorBytes_slice_zero (s : State) :
    xorBytes (slice s.din 0 16) s.chain = Vector.ofFn fun j => s.din[j.val] ^^^ s.chain[j] := by
  apply Vector.ext
  intro j hj
  simp [show j < 64 by omega]

/-- The block that CBC_ENC_FINAL encrypts, byte by byte (44_modes.md R196). -/
theorem xorBytes_pad_dinBuffer (s : State) {len : Nat} (hl : len ≤ 15) :
    xorBytes (pad (dinBuffer s len)) s.chain =
      Vector.ofFn fun j => (if j.val < len then s.din[j.val] else BitVec.ofNat 8 (16 - len)) ^^^ s.chain[j] := by
  have hbuf : (dinBuffer s len).length = len := by rw [length_dinBuffer]; omega
  apply Vector.ext
  intro j hj
  rw [getElem_xorBytes, getElem_pad _ hj, hbuf, Vector.getElem_ofFn]
  split
  · next hjl => simp [dinBuffer, hjl, show j < 64 by omega]
  · rfl

/-- Settles O40: both checks, then one block chained to the last. -/
theorem cbcEncUpdateChainsOneBlock : Obligations.CbcEncUpdateChainsOneBlock := by
  refine fun s len => ⟨fun hs => ?noStream, fun hs => ⟨fun hl => ?length, fun hl => ?chained⟩⟩
  case noStream => exact exists_failedAborting_of_firstError rfl (if_pos hs) nofun
  case length => exact exists_failedAborting_of_firstError rfl (by simp [firstError, hs, hl]) nofun
  case chained =>
    subst hl
    refine ⟨_, exec_cbcEncUpdate hs, output_block _ _, fun hsel => ?aes, fun hsel => ?tf, rfl⟩
    all_goals
      rw [complete_chain, nextCipherBlock, hsel, xorBytes_slice_zero]
      rfl

/-- Settles O41: both checks, then the padded rest. -/
theorem cbcEncFinalPadsAndCloses : Obligations.CbcEncFinalPadsAndCloses := by
  refine fun s len => ⟨fun hs => ?noStream, fun hs => ⟨fun hl => ?length, fun hl => ?closed⟩⟩
  case noStream => exact exists_failedAborting_of_firstError rfl (if_pos hs) nofun
  case length => exact exists_failedAborting_of_firstError rfl (by simp [firstError, hs, hl]) nofun
  case closed =>
    refine ⟨_, _, exec_cbcEncFinal hs hl, output_block _ _, ⟨fun hsel => ?aes, fun hsel => ?tf⟩, rfl⟩
    all_goals
      rw [hsel, xorBytes_pad_dinBuffer s hl]
      rfl

/-! The decryption stream. -/

theorem exec_cbcDecUpdate {s : State} (hs : s.strm = .dec) :
    exec (.cbcDecUpdate 16) s = .next (complete (if s.heldValid then s.held.toList else [])
      { s with
        chain := slice s.din 0 16
        held := xorBytes (blockDecrypt s s.strmSel (slice s.din 0 16)) s.chain
        heldValid := true }) :=
  exec_of_firstError_ok (by simp [firstError, hs])

theorem exec_cbcDecFinal {s : State} (hs : s.strm = .dec) (hv : s.heldValid = true) (hp : GoodPadding s.held) :
    exec (.cbcDecFinal 0) s = .next (complete (unpad s.held) (closeStream s)) :=
  exec_of_firstError_ok (by rw [← padOk_iff] at hp; simp [firstError, hs, hv, ← padOk_iff, hp])

/-- A remainder, no block or bad padding is a FormatError (44_modes.md R208). -/
theorem firstError_cbcDecFinal_of_bad {s : State} {len : Nat} (hs : s.strm = .dec) (hl : len < 16)
    (hbad : len ≠ 0 ∨ s.heldValid = false ∨ ¬ GoodPadding s.held) : firstError (.cbcDecFinal len) s = .formatError := by
  rw [firstError, if_neg (not_not.2 hs), if_neg (Nat.not_le.2 hl)]
  by_cases h0 : 1 ≤ len
  · exact if_pos h0
  rw [if_neg h0]
  by_cases hv : s.heldValid = false
  · exact if_pos hv
  have hp : ¬ GoodPadding s.held := (hbad.resolve_left (by omega)).resolve_left hv
  rw [if_neg hv, if_pos hp]

/-- Settles O43: both checks, then the block before goes out and the new one is held. -/
theorem cbcDecUpdateLagsOneBlock : Obligations.CbcDecUpdateLagsOneBlock := by
  refine fun s len => ⟨fun hs => ?noStream, fun hs => ⟨fun hl => ?length, fun hl => ?held⟩⟩
  case noStream => exact exists_failedAborting_of_firstError rfl (if_pos hs) nofun
  case length => exact exists_failedAborting_of_firstError rfl (by simp [firstError, hs, hl]) nofun
  case held =>
    subst hl
    refine ⟨_, exec_cbcDecUpdate hs, fun hv => ?lagging, fun hv => ?first, fun j => ?chain, fun j => ?recovered, rfl⟩
    case lagging => rw [hv]; exact output_block _ _
    case first => rw [hv]; exact output_nil _
    case chain => simp [show j.val < 64 by omega]
    case recovered =>
      constructor <;> intro hsel <;> (rw [hsel]; exact getElem_xorBytes _ _ j.isLt)

/-- Settles O44: the causes of a failure in their order, and the held block without its padding. -/
theorem cbcDecFinalStripsThePadding : Obligations.CbcDecFinalStripsThePadding := by
  refine fun s len => ⟨fun hs => ?noStream, fun hs => ⟨fun hl => ?length, fun ⟨hl, hbad⟩ => ?bad, ?good⟩⟩
  case noStream => exact exists_failedAborting_of_firstError rfl (if_pos hs) nofun
  case length => exact exists_failedAborting_of_firstError rfl (by simp [firstError, hs, hl]) nofun
  case bad => exact exists_failedAborting_of_firstError rfl (firstError_cbcDecFinal_of_bad hs hl hbad) nofun
  case good =>
    rintro ⟨rfl, hv, hp⟩
    exact ⟨_, exec_cbcDecFinal hs hv hp, output_complete (out := unpad s.held) (by rw [length_unpad]; omega) _, rfl⟩

end Sys2Proof.Machine

/-! ## The host's command streams -/

namespace Sys2Proof.Machine

open Sys2Proof Sys2Proof.Spec

/-- The contexts of the two block ciphers (10_state.md R37, R38). -/
def State.contexts (s : State) : Vector Block 15 × Bool × Words 40 × Words 4 × Bool :=
  (s.aesRk, s.aesKeyed, s.tfK, s.tfS, s.tfKeyed)

section PutDin

variable (b : List Byte) (s : State)

@[simp] theorem putDin_err : (putDin b s).err = s.err := by unfold putDin; rfl
@[simp] theorem putDin_strm : (putDin b s).strm = s.strm := by unfold putDin; rfl
@[simp] theorem putDin_strmSel : (putDin b s).strmSel = s.strmSel := by unfold putDin; rfl
@[simp] theorem putDin_chain : (putDin b s).chain = s.chain := by unfold putDin; rfl
@[simp] theorem putDin_held : (putDin b s).held = s.held := by unfold putDin; rfl
@[simp] theorem putDin_heldValid : (putDin b s).heldValid = s.heldValid := by unfold putDin; rfl
@[simp] theorem putDin_iv : (putDin b s).iv = s.iv := by unfold putDin; rfl
@[simp] theorem putDin_rngDrawn : (putDin b s).rngDrawn = s.rngDrawn := by unfold putDin; rfl
@[simp] theorem putDin_contexts : (putDin b s).contexts = s.contexts := by simp only [State.contexts, putDin]

end PutDin

theorem dinBuffer_putDin (s : State) {b : List Byte} (h : b.length ≤ 64) : dinBuffer (putDin b s) b.length = b := by
  apply List.ext_getElem
  · simp [h]
  · intro i hi hb
    have hword : i < 4 * bufWords b.length := by rw [bufWords]; omega
    simp [dinBuffer, putDin, hword, hb]

/-- The host's block is the block that the command reads. -/
theorem slice_putDin (s : State) {b : List Byte} (h : b.length = 16) : slice (putDin b s).din 0 16 = fillTo 16 b := by
  rw [← fillTo_toList (slice _ 0 16), toList_slice_zero _ (by decide), ← h]
  exact congrArg (fillTo _) (dinBuffer_putDin s (by omega))

theorem runCommand_of_exec {i : Instr} {b : List Byte} {s t : State} (h : exec i (putDin b s) = .next t) :
    runCommand i b s = (t, t.output) := by
  rw [runCommand, h]

theorem runCommand_of_complete {i : Instr} {b out : List Byte} {s u : State}
    (h : exec i (putDin b s) = .next (complete out u)) (hout : out.length ≤ 64) :
    runCommand i b s = (complete out u, out) := by
  rw [runCommand_of_exec h, complete_output hout]

/-- A failing command has no output (40_command.md R94). -/
theorem runCommand_of_firstError {i : Instr} {e : ErrCode} {b : List Byte} {s : State}
    (h : firstError i (putDin b s) = e) (he : e ≠ .ok) :
    runCommand i b s = (raiseError (opOf i) e (putDin b s), []) := by
  rw [runCommand_of_exec (exec_of_firstError h he), State.output, raiseError_outLen]
  rfl

theorem andThen_of_ok {r : State × List Byte} {f : State → State × List Byte} (h : r.1.err = .ok) :
    andThen r f = ((f r.1).1, r.2 ++ (f r.1).2) := if_pos h

theorem andThen_of_failed {r : State × List Byte} {f : State → State × List Byte} (h : r.1.err ≠ .ok) :
    andThen r f = r := if_neg h

/-! The CBC commands leave the cipher contexts alone. -/

section Contexts

variable {s t : State} (h : s.contexts = t.contexts) (c : CipherSel)

include h

theorem keyed_of_contexts : s.keyed c = t.keyed c := by
  simp only [State.contexts, Prod.mk.injEq] at h
  obtain ⟨-, haes, -, -, htf⟩ := h
  cases c with
  | aes => exact haes
  | tf => exact htf

theorem blockEncrypt_of_contexts : blockEncrypt s c = blockEncrypt t c := by
  simp only [State.contexts, Prod.mk.injEq] at h
  obtain ⟨hrk, -, hK, hS, -⟩ := h
  cases c with
  | aes => rw [blockEncrypt, hrk]; rfl
  | tf => rw [blockEncrypt, hK, hS]; rfl

theorem blockDecrypt_of_contexts : blockDecrypt s c = blockDecrypt t c := by
  simp only [State.contexts, Prod.mk.injEq] at h
  obtain ⟨hrk, -, hK, hS, -⟩ := h
  cases c with
  | aes => rw [blockDecrypt, hrk]; rfl
  | tf => rw [blockDecrypt, hK, hS]; rfl

end Contexts

theorem exec_contexts {i : Instr} {s t : State} (hi : isCbcCommand i = true) (h : exec i s = .next t) :
    t.contexts = s.contexts := by
  have hz : i ≠ .zeroize := by rintro rfl; cases hi
  obtain ⟨haes, htf, -⟩ := contextsHaveTheirOnlyWriters i s t h hz
  obtain ⟨hrk, hak⟩ := haes (by rintro len rfl; cases hi)
  obtain ⟨hK, hS, htk⟩ := htf (by rintro len rfl; cases hi)
  rw [State.contexts, hrk, hak, hK, hS, htk]
  rfl

theorem runCommand_contexts {i : Instr} (hi : isCbcCommand i = true) (b : List Byte) (s : State) :
    (runCommand i b s).1.contexts = s.contexts := by
  obtain ⟨t, ht, -⟩ := exec_ended i (putDin b s)
  rw [runCommand_of_exec ht]
  exact (exec_contexts hi ht).trans (putDin_contexts b s)

theorem andThen_contexts {f : State → State × List Byte} (hf : ∀ s, (f s).1.contexts = s.contexts)
    (r : State × List Byte) : (andThen r f).1.contexts = r.1.contexts := by
  unfold andThen
  split
  · exact hf r.1
  · rfl

theorem updates_contexts {i : Instr} (hi : isCbcCommand i = true) (m : Nat) (P : List Byte) (s : State) :
    (updates i m P s).1.contexts = s.contexts := by
  induction m generalizing P s with
  | zero => rfl
  | succ m ih => rw [updates, andThen_contexts (ih _), runCommand_contexts hi]

theorem encryptStream_contexts (c : CipherSel) (gen : Bool) (P : List Byte) (s : State) :
    (encryptStream c gen P s).1.contexts = s.contexts := by
  rw [encryptStream, andThen_contexts fun s => ?_, runCommand_contexts (isCbcCommand_encStart c gen)]
  rw [andThen_contexts (runCommand_contexts rfl _), updates_contexts rfl]

end Sys2Proof.Machine

/-! ## The encryption stream -/

namespace Sys2Proof.Machine

open Sys2Proof Sys2Proof.Spec

theorem length_cbcChain (E : Block → Block) (v : Block) (bs : List Block) : (cbcChain E v bs).length = 16 * bs.length := by
  induction bs generalizing v with
  | nil => rfl
  | cons b bs ih => rw [cbcChain, List.length_append, ih, Vector.length_toList, List.length_cons]; omega

/-- The last ciphertext block of a list of blocks, or the IV when there is none: what the chain is after them. -/
def chainAfter (E : Block → Block) (v : Block) (bs : List Block) : Block := bs.foldl (fun w b => E (xorBytes b w)) v

theorem cbcChain_append (E : Block → Block) (v : Block) (as bs : List Block) :
    cbcChain E v (as ++ bs) = cbcChain E v as ++ cbcChain E (chainAfter E v as) bs := by
  induction as generalizing v with
  | nil => rfl
  | cons a as ih =>
    rw [List.cons_append, cbcChain, ih, cbcChain, List.append_assoc]
    rfl

/-- The first m blocks of a byte string. -/
def fullBlocks (P : List Byte) (m : Nat) : List Block := (List.range m).map (blockAt P)

theorem paddedBlocks_eq (P : List Byte) :
    paddedBlocks P = fullBlocks P (P.length / 16) ++ [pad (P.drop (16 * (P.length / 16)))] := rfl

theorem fullBlocks_succ (P : List Byte) (m : Nat) : fullBlocks P (m + 1) = blockAt P 0 :: fullBlocks (P.drop 16) m := by
  rw [fullBlocks, List.range_succ_eq_map, List.map_cons, List.map_map, fullBlocks]
  congr 2
  exact funext (blockAt_succ P)

@[simp] theorem length_paddedBlocks (P : List Byte) : (paddedBlocks P).length = P.length / 16 + 1 := by
  simp [paddedBlocks]

/-- An encryption stream of the cipher c, whose block function is E, open without an error and chained to v. -/
structure EncStream (c : CipherSel) (E : Block → Block) (v : Block) (s : State) : Prop where
  err : s.err = .ok
  strm : s.strm = .enc
  sel : s.strmSel = c
  chain : s.chain = v
  cipher : blockEncrypt s c = E

theorem chosenIv_putDin (gen : Bool) (b : List Byte) (s : State) : chosenIv gen (putDin b s) = chosenIv gen s := by
  simp only [chosenIv, rngBytes, putDin_iv, putDin_rngDrawn]

theorem runCommand_encStart {c : CipherSel} {s : State} (gen : Bool) (hs : s.strm = .idle) (hk : s.keyed c = true) :
    EncStream c (blockEncrypt s c) (chosenIv gen s) (runCommand (encStart c gen) [] s).1 ∧
    (runCommand (encStart c gen) [] s).2 = (chosenIv gen s).toList := by
  have hexec := exec_encStart (s := putDin [] s) gen ((putDin_strm [] s).trans hs)
    ((keyed_of_contexts (putDin_contexts [] s) c).trans hk)
  have hcontexts := runCommand_contexts (isCbcCommand_encStart c gen) [] s
  have hcipher := blockEncrypt_of_contexts hcontexts c
  rw [runCommand_of_complete hexec (by simp)] at hcipher ⊢
  rw [← chosenIv_putDin gen [] s]
  exact ⟨⟨rfl, rfl, rfl, rfl, hcipher⟩, rfl⟩

section

variable {c : CipherSel} {E : Block → Block} {v : Block} {s : State} (hs : EncStream c E v s)

include hs

/-- No byte of DIN is part of the stream. -/
theorem EncStream.withDin (b : List Byte) : EncStream c E v (putDin b s) where
  err := (putDin_err b s).trans hs.err
  strm := (putDin_strm b s).trans hs.strm
  sel := (putDin_strmSel b s).trans hs.sel
  chain := (putDin_chain b s).trans hs.chain
  cipher := (blockEncrypt_of_contexts (putDin_contexts b s) c).trans hs.cipher

/-- The stream goes on from any block that is chained. -/
theorem EncStream.chained (w : Block) (out : List Byte) : EncStream c E w (complete out { s with chain := w }) :=
  ⟨rfl, hs.strm, hs.sel, rfl, hs.cipher⟩

/-- An UPDATE outputs the next ciphertext block and chains to it (44_modes.md R199). -/
theorem EncStream.run_update {b : List Byte} (hb : b.length = 16) :
    EncStream c E (E (xorBytes (fillTo 16 b) v)) (runCommand (.cbcEncUpdate 16) b s).1 ∧
    (runCommand (.cbcEncUpdate 16) b s).2 = (E (xorBytes (fillTo 16 b) v)).toList := by
  have hdin := hs.withDin b
  have hblock : nextCipherBlock (putDin b s) = E (xorBytes (fillTo 16 b) v) := by
    rw [nextCipherBlock, hdin.sel, hdin.cipher, hdin.chain, slice_putDin s hb]
  rw [runCommand_of_complete (exec_cbcEncUpdate hdin.strm) (by simp), hblock]
  exact ⟨hdin.chained _ _, rfl⟩

/-- The UPDATEs of m blocks output their ciphertext and chain to its last block. -/
theorem EncStream.run_updates {m : Nat} {P : List Byte} (hP : 16 * m ≤ P.length) :
    EncStream c E (chainAfter E v (fullBlocks P m)) (updates (.cbcEncUpdate 16) m P s).1 ∧
    (updates (.cbcEncUpdate 16) m P s).2 = cbcChain E v (fullBlocks P m) := by
  induction m generalizing P v s with
  | zero => exact ⟨hs, rfl⟩
  | succ m ih =>
    obtain ⟨hnext, hout⟩ := hs.run_update (b := P.take 16) (by rw [List.length_take]; omega)
    obtain ⟨hlast, hrest⟩ := ih hnext (P := P.drop 16) (by rw [List.length_drop]; omega)
    rw [fillTo_take] at hout hlast hrest
    rw [updates, andThen_of_ok hnext.err, hout, hrest, fullBlocks_succ]
    exact ⟨hlast, rfl⟩

/-- FINAL outputs the ciphertext of the padded rest and closes the stream (44_modes.md R200). -/
theorem EncStream.run_final {t : List Byte} (ht : t.length ≤ 15) :
    (runCommand (.cbcEncFinal t.length) t s).1.err = .ok ∧ (runCommand (.cbcEncFinal t.length) t s).1.strm = .idle ∧
    (runCommand (.cbcEncFinal t.length) t s).2 = cbcChain E v [pad t] := by
  obtain ⟨-, hstrm, hsel, hchain, hE⟩ := hs.withDin t
  rw [runCommand_of_complete (exec_cbcEncFinal hstrm ht) (by simp), dinBuffer_putDin s (by omega), hsel, hE, hchain]
  refine ⟨rfl, rfl, ?_⟩
  rw [cbcChain, cbcChain, List.append_nil]

end

/-- START, the UPDATEs and FINAL in turn (44_modes.md R211). -/
theorem encryptStream_eq {c : CipherSel} {s : State} (gen : Bool) (P : List Byte) (hs : s.strm = .idle)
    (hk : s.keyed c = true) :
    (encryptStream c gen P s).1.err = .ok ∧ (encryptStream c gen P s).1.strm = .idle ∧
    (encryptStream c gen P s).2 =
      (chosenIv gen s).toList ++ cbcChain (blockEncrypt s c) (chosenIv gen s) (paddedBlocks P) := by
  obtain ⟨hopen, hiv⟩ := runCommand_encStart gen hs hk
  obtain ⟨hchained, hfull⟩ := hopen.run_updates (m := P.length / 16) (P := P) (by omega)
  have hrest : (P.drop (16 * (P.length / 16))).length = P.length % 16 := by rw [List.length_drop]; omega
  obtain ⟨herr, hclosed, hlast⟩ := hchained.run_final (t := P.drop (16 * (P.length / 16))) (by omega)
  rw [hrest] at herr hclosed hlast
  rw [encryptStream, andThen_of_ok hopen.err, andThen_of_ok hchained.err]
  refine ⟨herr, hclosed, ?_⟩
  rw [hiv, hfull, hlast, paddedBlocks_eq, cbcChain_append]

theorem length_encryptStream {c : CipherSel} {s : State} (gen : Bool) (P : List Byte) (hs : s.strm = .idle)
    (hk : s.keyed c = true) : (encryptStream c gen P s).2.length = 16 + 16 * (P.length / 16 + 1) := by
  obtain ⟨-, -, hout⟩ := encryptStream_eq gen P hs hk
  rw [hout, List.length_append, length_cbcChain, length_paddedBlocks, Vector.length_toList]

/-- Settles O57. -/
theorem encryptionStreamIsCbc : Obligations.EncryptionStreamIsCbc := by
  intro c gen P s hs hk
  obtain ⟨herr, hclosed, hout⟩ := encryptStream_eq gen P hs hk
  exact ⟨hout, length_encryptStream gen P hs hk, herr, hclosed⟩

end Sys2Proof.Machine

/-! ## The decryption stream -/

namespace Sys2Proof.Machine

open Sys2Proof Sys2Proof.Spec

/-- What the core holds back after block i of a stream, block 0 being its IV: the last block it recovered (44_modes.md R204). -/
def pending (D : Block → Block) (S : List Byte) (i : Nat) : List Byte := if i = 0 then [] else (recovered D S i).toList

theorem length_pending (D : Block → Block) (S : List Byte) (i : Nat) : (pending D S i).length ≤ 16 := by
  rw [pending]
  split <;> simp

/-- A decryption stream of the cipher c, whose inverse block function is D, open without an error after block i of S. -/
structure DecStream (c : CipherSel) (D : Block → Block) (S : List Byte) (i : Nat) (s : State) : Prop where
  err : s.err = .ok
  strm : s.strm = .dec
  sel : s.strmSel = c
  chain : s.chain = blockAt S i
  heldValid : s.heldValid = decide (i ≠ 0)
  held : i ≠ 0 → s.held = recovered D S i
  cipher : blockDecrypt s c = D

theorem runCommand_decStart {c : CipherSel} {S : List Byte} {s : State} (hs : s.strm = .idle) (hk : s.keyed c = true)
    (hS : 16 ≤ S.length) :
    DecStream c (blockDecrypt s c) S 0 (runCommand (decStart c 16) (S.take 16) s).1 ∧
    (runCommand (decStart c 16) (S.take 16) s).2 = [] := by
  have hexec := exec_decStart (s := putDin (S.take 16) s) ((putDin_strm _ s).trans hs)
    ((keyed_of_contexts (putDin_contexts _ s) c).trans hk)
  have hcipher := blockDecrypt_of_contexts (runCommand_contexts (isCbcCommand_decStart c 16) (S.take 16) s) c
  have hiv : slice (putDin (S.take 16) s).din 0 16 = blockAt S 0 := by
    rw [slice_putDin s (List.length_take_of_le hS), fillTo_take, blockAt_zero]
  rw [runCommand_of_complete hexec (by simp)] at hcipher ⊢
  exact ⟨⟨rfl, rfl, rfl, hiv, rfl, fun h => absurd rfl h, hcipher⟩, rfl⟩

section

variable {c : CipherSel} {D : Block → Block} {S : List Byte} {i : Nat} {s : State} (hs : DecStream c D S i s)

include hs

/-- No byte of DIN is part of the stream. -/
theorem DecStream.withDin (b : List Byte) : DecStream c D S i (putDin b s) where
  err := (putDin_err b s).trans hs.err
  strm := (putDin_strm b s).trans hs.strm
  sel := (putDin_strmSel b s).trans hs.sel
  chain := (putDin_chain b s).trans hs.chain
  heldValid := (putDin_heldValid b s).trans hs.heldValid
  held h := (putDin_held b s).trans (hs.held h)
  cipher := (blockDecrypt_of_contexts (putDin_contexts b s) c).trans hs.cipher

/-- What an UPDATE outputs (44_modes.md R207). -/
theorem DecStream.lagging : (if s.heldValid then s.held.toList else []) = pending D S i := by
  rw [hs.heldValid, pending]
  by_cases hi : i = 0
  · simp [hi]
  · simp [hi, hs.held hi]

/-- The stream goes on with the next block of S. -/
theorem DecStream.chained (out : List Byte) : DecStream c D S (i + 1) (complete out
    { s with chain := blockAt S (i + 1), held := recovered D S (i + 1), heldValid := true }) :=
  ⟨rfl, hs.strm, hs.sel, rfl, rfl, fun _ => rfl, hs.cipher⟩

/-- An UPDATE takes block i + 1 in and outputs what was held back (44_modes.md R204, R207). -/
theorem DecStream.run_update {b : List Byte} (hb : b.length = 16) (hblock : fillTo 16 b = blockAt S (i + 1)) :
    DecStream c D S (i + 1) (runCommand (.cbcDecUpdate 16) b s).1 ∧
    (runCommand (.cbcDecUpdate 16) b s).2 = pending D S i := by
  have hdin := hs.withDin b
  have hread : slice (putDin b s).din 0 16 = blockAt S (i + 1) := (slice_putDin s hb).trans hblock
  have hheld : xorBytes (blockDecrypt (putDin b s) (putDin b s).strmSel (blockAt S (i + 1))) (putDin b s).chain =
      recovered D S (i + 1) := by
    rw [hdin.sel, hdin.cipher, hdin.chain]
    rfl
  have hexec := exec_cbcDecUpdate hdin.strm
  rw [hdin.lagging, hread, hheld] at hexec
  rw [runCommand_of_complete hexec ((length_pending D S i).trans (by decide))]
  exact ⟨hdin.chained _, rfl⟩

/-- The UPDATEs of m blocks output what was held back and the recovered blocks but the last. -/
theorem DecStream.run_updates {m : Nat} (hS : 16 * (i + 1) + 16 * m ≤ S.length) :
    DecStream c D S (i + m) (updates (.cbcDecUpdate 16) m (S.drop (16 * (i + 1))) s).1 ∧
    (updates (.cbcDecUpdate 16) m (S.drop (16 * (i + 1))) s).2 =
      (List.range m).flatMap fun j => pending D S (i + j) := by
  induction m generalizing i s with
  | zero => exact ⟨hs, rfl⟩
  | succ m ih =>
    obtain ⟨hnext, hout⟩ := hs.run_update (b := (S.drop (16 * (i + 1))).take 16)
      (by rw [List.length_take, List.length_drop]; omega) (fillTo_take 16 _)
    obtain ⟨hlast, hrest⟩ := ih hnext (by omega)
    have hdrop : (S.drop (16 * (i + 1))).drop 16 = S.drop (16 * (i + 1 + 1)) := by rw [List.drop_drop]; rfl
    rw [updates, andThen_of_ok hnext.err, hdrop, hout, hrest, List.range_succ_eq_map, List.flatMap_cons, List.flatMap_map]
    simp only [Nat.add_right_comm i 1] at hlast ⊢
    exact ⟨hlast, rfl⟩

/-- FINAL without a remainder, after a block with good padding (44_modes.md R208). -/
theorem DecStream.run_final (hi : i ≠ 0) (hp : GoodPadding (recovered D S i)) :
    (runCommand (.cbcDecFinal 0) [] s).1.err = .ok ∧ (runCommand (.cbcDecFinal 0) [] s).1.strm = .idle ∧
    (runCommand (.cbcDecFinal 0) [] s).2 = unpad (recovered D S i) := by
  have hdin := hs.withDin []
  have hheld := hdin.held hi
  have hexec := exec_cbcDecFinal hdin.strm (hdin.heldValid.trans (decide_eq_true hi)) (by rwa [hheld])
  rw [hheld] at hexec
  rw [runCommand_of_complete hexec (by rw [length_unpad]; omega)]
  exact ⟨rfl, rfl, rfl⟩

/-- FINAL with a remainder, before any block or after one with bad padding. -/
theorem DecStream.run_final_bad {len : Nat} (hl : len < 16) (hbad : len ≠ 0 ∨ i = 0 ∨ ¬ GoodPadding (recovered D S i)) :
    (runCommand (.cbcDecFinal len) [] s).1.err = .formatError ∧ (runCommand (.cbcDecFinal len) [] s).1.strm = .idle := by
  have hdin := hs.withDin []
  have hcause : len ≠ 0 ∨ (putDin [] s).heldValid = false ∨ ¬ GoodPadding (putDin [] s).held := by
    by_cases hi : i = 0
    · exact .inr (.inl (hdin.heldValid.trans (decide_eq_false (not_not.2 hi))))
    · rw [hdin.held hi]
      exact hbad.imp_right fun h => .inr (h.resolve_left hi)
  have hop : isCbcOp (opOf (.cbcDecFinal len)) = true := isCbcOp_opOf (.cbcDecFinal len)
  rw [runCommand_of_firstError (firstError_cbcDecFinal_of_bad hdin.strm hl hcause) nofun, raiseError_of_cbc hop]
  exact ⟨rfl, rfl⟩

end

section

variable {c : CipherSel} {S : List Byte} {s : State} (hs : s.strm = .idle) (hk : s.keyed c = true)

include hs hk

/-- A stream that ends inside its IV fails at START. -/
theorem decryptStream_of_short (hS : S.length < 16) :
    (decryptStream c S s).1.err = .formatError ∧ (decryptStream c S s).1.strm = .idle := by
  have hfirst : firstError (decStart c (min S.length 16)) (putDin (S.take 16) s) = .formatError :=
    firstError_decStart_of_lt ((putDin_strm _ s).trans hs) ((keyed_of_contexts (putDin_contexts _ s) c).trans hk) (by omega)
  have hop := (isCbcOp_opOf (decStart c (min S.length 16))).trans (isCbcCommand_decStart c _)
  have hstart := runCommand_of_firstError hfirst nofun
  rw [raiseError_of_cbc hop] at hstart
  rw [decryptStream, andThen_of_failed (by rw [hstart]; nofun), hstart]
  exact ⟨rfl, rfl⟩

/-- With an IV, the stream ends as FINAL does after one UPDATE for each whole block (44_modes.md R212). -/
theorem exists_decryptStream_eq_final (hS : 16 ≤ S.length) :
    ∃ t, DecStream c (blockDecrypt s c) S ((S.length - 16) / 16) t ∧
      decryptStream c S s = ((runCommand (.cbcDecFinal ((S.length - 16) % 16)) [] t).1,
        ((List.range ((S.length - 16) / 16)).flatMap (pending (blockDecrypt s c) S)) ++
          (runCommand (.cbcDecFinal ((S.length - 16) % 16)) [] t).2) := by
  obtain ⟨hopen, hstart⟩ := runCommand_decStart hs hk hS
  obtain ⟨hlast, hout⟩ := hopen.run_updates (m := (S.length - 16) / 16) (by omega)
  simp only [Nat.zero_add, Nat.mul_one] at hlast hout
  refine ⟨_, hlast, ?_⟩
  rw [decryptStream, Nat.min_eq_right hS, andThen_of_ok hopen.err, andThen_of_ok hlast.err, hstart, hout]
  rfl

end

/-- The IV lets nothing out: the outputs of k UPDATEs are the recovered blocks but the last. -/
theorem flatMap_pending (D : Block → Block) (S : List Byte) (k : Nat) :
    (List.range k).flatMap (pending D S) = (List.range (k - 1)).flatMap fun i => (recovered D S (i + 1)).toList := by
  cases k with
  | zero => rfl
  | succ k => rw [List.range_succ_eq_map, List.flatMap_cons, List.flatMap_map]; rfl

/-- A stream of an IV, a whole positive number of blocks and good padding in the last of them (44_modes.md R212). -/
def GoodStream (D : Block → Block) (S : List Byte) : Prop :=
  32 ≤ S.length ∧ (S.length - 16) % 16 = 0 ∧ GoodPadding (recovered D S ((S.length - 16) / 16))

section

variable {c : CipherSel} {S : List Byte} {s : State} (hs : s.strm = .idle) (hk : s.keyed c = true)

include hs hk

theorem decryptStream_of_good (hgood : GoodStream (blockDecrypt s c) S) :
    (decryptStream c S s).1.err = .ok ∧ (decryptStream c S s).1.strm = .idle ∧
    (decryptStream c S s).2 =
      ((List.range ((S.length - 16) / 16 - 1)).flatMap fun i => (recovered (blockDecrypt s c) S (i + 1)).toList) ++
        unpad (recovered (blockDecrypt s c) S ((S.length - 16) / 16)) := by
  obtain ⟨hlong, hwhole, hp⟩ := hgood
  obtain ⟨t, ht, hend⟩ := exists_decryptStream_eq_final hs hk (by omega : 16 ≤ S.length)
  obtain ⟨herr, hclosed, hlast⟩ := ht.run_final (by omega) hp
  rw [hend, hwhole, hlast, flatMap_pending]
  exact ⟨herr, hclosed, rfl⟩

theorem decryptStream_of_bad (hbad : ¬ GoodStream (blockDecrypt s c) S) :
    (decryptStream c S s).1.err = .formatError ∧ (decryptStream c S s).1.strm = .idle := by
  by_cases hS : S.length < 16
  · exact decryptStream_of_short hs hk hS
  obtain ⟨t, ht, hend⟩ := exists_decryptStream_eq_final hs hk (Nat.le_of_not_lt hS)
  have hcause : (S.length - 16) % 16 ≠ 0 ∨ (S.length - 16) / 16 = 0 ∨
      ¬ GoodPadding (recovered (blockDecrypt s c) S ((S.length - 16) / 16)) := by
    by_contra hnone
    obtain ⟨hwhole, hblocks, hp⟩ : (S.length - 16) % 16 = 0 ∧ (S.length - 16) / 16 ≠ 0 ∧
        GoodPadding (recovered (blockDecrypt s c) S ((S.length - 16) / 16)) := by
      simpa only [not_or, not_not] using hnone
    exact hbad ⟨by omega, hwhole, hp⟩
  rw [hend]
  exact ht.run_final_bad (Nat.mod_lt _ (by decide)) hcause

end

/-- Settles O58: START decides on the IV, and FINAL on all the rest. -/
theorem decryptionStreamIsCbc : Obligations.DecryptionStreamIsCbc := by
  intro c S s hs hk
  refine ⟨fun hgood => ?good, fun hbad => (decryptStream_of_bad hs hk hbad).1, ?closed⟩
  case good =>
    obtain ⟨herr, -, hout⟩ := decryptStream_of_good hs hk hgood
    exact ⟨herr, hout⟩
  case closed =>
    by_cases hgood : GoodStream (blockDecrypt s c) S
    · obtain ⟨-, hclosed, -⟩ := decryptStream_of_good hs hk hgood
      exact hclosed
    · obtain ⟨-, hclosed⟩ := decryptStream_of_bad hs hk hgood
      exact hclosed

end Sys2Proof.Machine

/-! ## The CBC round trip -/

namespace Sys2Proof.Machine

open Sys2Proof Sys2Proof.Spec

theorem recovered_append_succ (D : Block → Block) (v : Block) (T : List Byte) (i : Nat) :
    recovered D (v.toList ++ T) (i + 2) = recovered D T (i + 1) := by
  rw [recovered, recovered, blockAt_append_succ, Nat.add_sub_cancel]
  exact congrArg _ (blockAt_append_succ v T i)

/-- The first block after the IV is undone with the IV. -/
theorem recovered_append_one (D : Block → Block) (v w : Block) (T : List Byte) :
    recovered D (v.toList ++ (w.toList ++ T)) 1 = xorBytes (D w) v := by
  rw [recovered, blockAt_append_succ, blockAt_append_zero, Nat.sub_self, blockAt_append_zero]

/-- Decryption recovers each block of a chained ciphertext (44_modes.md R202). -/
theorem recovered_cbcChain {D E : Block → Block} (hDE : ∀ b, D (E b) = b) (v : Block) {bs : List Block} {i : Nat}
    (hi : i < bs.length) : recovered D (v.toList ++ cbcChain E v bs) (i + 1) = bs[i] := by
  induction bs generalizing v i with
  | nil => exact absurd hi (Nat.not_lt_zero i)
  | cons b bs ih =>
    rw [cbcChain]
    cases i with
    | zero => rw [recovered_append_one, hDE, xorBytes_xorBytes]; rfl
    | succ i =>
      rw [recovered_append_succ]
      exact ih _ (Nat.lt_of_succ_lt_succ hi)

/-- The blocks of the front of a byte string, put together again. -/
theorem flatMap_blockAt {P : List Byte} {m : Nat} (h : 16 * m ≤ P.length) :
    ((List.range m).flatMap fun i => (blockAt P i).toList) = P.take (16 * m) := by
  induction m with
  | zero => rfl
  | succ m ih =>
    have hlast : (blockAt P m).toList = (P.drop (16 * m)).take 16 :=
      toList_fillTo_of_le (by rw [List.length_drop]; omega)
    rw [List.range_succ, List.flatMap_append, ih (by omega), List.flatMap_singleton, hlast, Nat.mul_succ, List.take_add]

section

variable {t : List Byte} (ht : t.length ≤ 15)

include ht

/-- The last byte of a padded block counts the padding (44_modes.md R196, R197). -/
theorem padLen_pad : padLen (pad t) = 16 - t.length := by
  rw [padLen, getElem_pad t (by decide), if_neg (by omega), BitVec.toNat_ofNat, Nat.mod_eq_of_lt (by omega)]

theorem goodPadding_pad : GoodPadding (pad t) := by
  have hlen : (pad t)[15].toNat = 16 - t.length := padLen_pad ht
  refine ⟨by omega, by omega, fun j hj => ?_⟩
  rw [Fin.getElem_fin, getElem_pad t j.isLt, getElem_pad t (by decide), if_neg (by omega), if_neg (by omega)]

/-- Unpad undoes Pad (44_modes.md R197). -/
theorem unpad_pad : unpad (pad t) = t := by
  rw [unpad, padLen_pad ht]
  apply List.ext_getElem
  · rw [List.length_take, Vector.length_toList]; omega
  · intro i _ hi
    rw [List.getElem_take, Vector.getElem_toList, getElem_pad t (by omega), if_pos hi, List.getD_eq_getElem t 0 hi]

end

section

variable {D E : Block → Block} (hDE : ∀ b, D (E b) = b) (v : Block) (P : List Byte)

include hDE

theorem recovered_full {i : Nat} (hi : i < P.length / 16) :
    recovered D (v.toList ++ cbcChain E v (paddedBlocks P)) (i + 1) = blockAt P i := by
  rw [recovered_cbcChain hDE v (by rw [length_paddedBlocks]; omega)]
  simp [paddedBlocks, hi]

theorem recovered_last : recovered D (v.toList ++ cbcChain E v (paddedBlocks P)) (P.length / 16 + 1) =
    pad (P.drop (16 * (P.length / 16))) := by
  rw [recovered_cbcChain hDE v (by rw [length_paddedBlocks]; omega)]
  simp [paddedBlocks]

end

/-- Settles O59: the encryption stream's output is a good stream, and the blocks that it recovers to are those of P. -/
theorem cbcStreamRoundTrip : Obligations.CbcStreamRoundTrip := by
  intro c gen P s hs hk
  obtain ⟨-, hclosed, hout⟩ := encryptStream_eq gen P hs hk
  have hlen := length_encryptStream gen P hs hk
  have hcontexts := encryptStream_contexts c gen P s
  have hDE (b : Block) : blockDecrypt (encryptStream c gen P s).1 c (blockEncrypt s c b) = b := by
    rw [blockDecrypt_of_contexts hcontexts, blockDecrypt_blockEncrypt]
  generalize encryptStream c gen P s = e at *
  have hblocks : (e.2.length - 16) / 16 = P.length / 16 + 1 := by omega
  have hrest : (P.drop (16 * (P.length / 16))).length ≤ 15 := by rw [List.length_drop]; omega
  have hlast : recovered (blockDecrypt e.1 c) e.2 (P.length / 16 + 1) = pad (P.drop (16 * (P.length / 16))) := by
    rw [hout]
    exact recovered_last hDE _ P
  have hfull (i : Nat) (hi : i ∈ List.range (P.length / 16)) :
      (recovered (blockDecrypt e.1 c) e.2 (i + 1)).toList = (blockAt P i).toList := by
    rw [hout, recovered_full hDE _ P (List.mem_range.1 hi)]
  have hgood : GoodStream (blockDecrypt e.1 c) e.2 :=
    ⟨by omega, by omega, by rw [hblocks, hlast]; exact goodPadding_pad hrest⟩
  obtain ⟨herr, -, hplain⟩ := decryptStream_of_good hclosed ((keyed_of_contexts hcontexts c).trans hk) hgood
  refine ⟨herr, hplain.trans ?_⟩
  rw [hblocks, hlast, unpad_pad hrest, Nat.add_sub_cancel, List.flatMap_congr hfull, flatMap_blockAt (by omega),
    List.take_append_drop]

end Sys2Proof.Machine

/-! ## The result codes -/

namespace Sys2Proof.Machine

open Sys2Proof Sys2Proof.Spec

/-- A command's result code is its first error. -/
theorem conclude_err (op : BitVec 8) (e : ErrCode) (out : List Byte) (u s : State) : (conclude op e out u s).err = e := by
  unfold conclude
  split
  · next he => rw [complete_err, he]
  · exact raiseError_err s op e

theorem exists_exec_err (i : Instr) (s : State) : ∃ t, exec i s = .next t ∧ t.err = firstError i s :=
  ⟨_, exec_eq_conclude i s, conclude_err _ _ _ _ _⟩

/-- Settles O24: an illegal word raises IllegalCommand, and any other is a command, which concludes with its first error. -/
theorem commandsReportTheFirstError : Obligations.CommandsReportTheFirstError := by
  refine fun w s => ⟨fun hw => ?illegal, fun i hi => ?decoded, fun i => exists_exec_err i s⟩
  case illegal => exact ⟨_, executeWord_of_illegal hw s, raiseError_err s _ _⟩
  case decoded => rw [executeWord_of_decode hi]; exact exists_exec_err i s

end Sys2Proof.Machine

/-! ## The bus error and the acknowledged access -/

namespace Sys2Proof.Machine

open Sys2Proof Sys2Proof.Spec

/-- Every word written to CMD ends, be it illegal or a command (60_exceptions.md R232). -/
theorem exists_executeWord (w : Word) (s : State) : ∃ t, executeWord w s = .next t := by
  cases hw : illegalWord w with
  | true => exact ⟨_, executeWord_of_illegal hw s⟩
  | false =>
    obtain ⟨i, hi⟩ := exists_decode_eq_ok.2 hw
    exact ⟨_, (executeWord_of_decode hi s).trans (exec_eq_conclude i s)⟩

theorem exists_writeReg (v : Word) (s : State) (r : Reg) : ∃ t, writeReg v s r = .next t := by
  cases r with
  | cmd => exact exists_executeWord v s
  | _ => exact ⟨_, rfl⟩

section BusError

/-! An access of another width or alignment (20_memory.md R54). -/

variable {off : BitVec 12} {width : Nat} (hbad : ¬ (width = 4 ∧ off.toNat % 4 = 0))
include hbad

theorem accessOk_of_bad : accessOk off width = false := by simpa [accessOk] using hbad

theorem serveAccess_badRead (s : State) : serveAccess (.read off width) s = .next (respond (.readError 0) s) := by
  simp [serveAccess, accessOk_of_bad hbad]

theorem serveAccess_badWrite (v : Word) (s : State) :
    serveAccess (.write off width v) s = .next (respond .writeError s) := by
  simp [serveAccess, accessOk_of_bad hbad]

variable {s : State} {rest : List Input}

theorem step_of_badRead (h : ServesNext (.read off width) rest s) :
    step s = .next { s with inputs := rest, bus := .readError 0 } :=
  (step_of_input h.1 h.2).trans (serveAccess_badRead hbad _)

theorem step_of_badWrite {v : Word} (h : ServesNext (.write off width v) rest s) :
    step s = .next { s with inputs := rest, bus := .writeError } :=
  (step_of_input h.1 h.2).trans (serveAccess_badWrite hbad v _)

end BusError

/-- An aligned write of any register is acknowledged. -/
theorem exists_serveAccess_write {off : BitVec 12} (ha : off.toNat % 4 = 0) (v : Word) (s : State) :
    ∃ u, serveAccess (.write off 4 v) s = .next (respond .writeOkay u) := by
  obtain ⟨u, hu⟩ := exists_writeReg v s (regAt off)
  exact ⟨u, by rw [serveAccess_write v ha, hu]; rfl⟩

/-- Settles O7: width and alignment decide between the bus error and the register, whose read and write both answer. -/
theorem busErrorChangesNothing : Obligations.BusErrorChangesNothing := by
  refine fun s rest off width => ⟨fun hbad => ⟨step_of_badRead hbad, fun _ => step_of_badWrite hbad⟩, ?_⟩
  rintro ⟨rfl, ha⟩
  refine ⟨fun h => ⟨_, _, step_of_read ha h, rfl⟩, fun v ⟨hr, hi⟩ => ?_⟩
  obtain ⟨u, hu⟩ := exists_serveAccess_write ha v { s with inputs := rest }
  exact ⟨_, (step_of_input hr hi).trans hu, rfl⟩

end Sys2Proof.Machine

/-! ## Every step goes on -/

namespace Sys2Proof.Machine

open Sys2Proof Sys2Proof.Spec

/-- Settles O16: with no input there is none to take, and while `rst_n` is low accesses hold no edge to take. -/
theorem idleStepDoesNothing : Obligations.IdleStepDoesNothing :=
  fun _ => ⟨step_of_no_input, fun _ => step_of_accesses_in_reset⟩

theorem exists_serveAccess (a : Access) (s : State) : ∃ t, serveAccess a s = .next t := by
  cases a with
  | read off width => exact ⟨_, rfl⟩
  | write off width v =>
    by_cases hok : width = 4 ∧ off.toNat % 4 = 0
    · obtain ⟨rfl, ha⟩ := hok
      obtain ⟨u, hu⟩ := exists_serveAccess_write ha v s
      exact ⟨_, hu⟩
    · exact ⟨_, serveAccess_badWrite hok v s⟩

theorem exists_serveInput (i : Input) (s : State) : ∃ t, serveInput i s = .next t := by
  cases i with
  | access a => exact exists_serveAccess a s
  | _ => exact ⟨_, rfl⟩

/-- The core with nothing to take stays as it is. -/
theorem step_of_nextInput_none {s : State} (h : nextInput s = none) : step s = .next s := by
  simp only [step, h]

/-- Settles O19: the step without an input answers, and so does the service of every input. -/
theorem everyStepGoesOn : Obligations.EveryStepGoesOn := by
  intro s
  cases hn : nextInput s with
  | none => exact ⟨s, step_of_nextInput_none hn⟩
  | some p =>
    obtain ⟨i, rest⟩ := p
    rw [step_of_nextInput hn]
    exact exists_serveInput i _

end Sys2Proof.Machine

/-! ## The secrets -/

namespace Sys2Proof.Machine

open Sys2Proof Sys2Proof.Spec

theorem State.SameButSecrets.refl (s : State) : s.SameButSecrets s := ⟨rfl, rfl, rfl⟩

theorem leaveReset_of_low {s : State} (hr : s.rstN = false) :
    leaveReset s = { clearCore s with rstN := true, bus := .none } := by
  simp [leaveReset, hr]

section SameButSecrets

variable {s t : State} (h : s.SameButSecrets t)
include h

theorem State.SameButSecrets.rstN_eq : s.rstN = t.rstN := (congrArg State.rstN h.1 :)

theorem State.SameButSecrets.inputs_eq : s.inputs = t.inputs := (congrArg State.inputs h.1 :)

theorem State.SameButSecrets.bus_eq : s.bus = t.bus := (congrArg State.bus h.1 :)

theorem State.SameButSecrets.salsaReady_eq : s.salsaReady = t.salsaReady := (congrArg State.salsaReady h.1 :)

theorem State.SameButSecrets.withInputs (l : List Input) :
    State.SameButSecrets { s with inputs := l } { t with inputs := l } :=
  ⟨(congrArg (fun u : State => { u with inputs := l }) h.1 :), h.2⟩

theorem State.SameButSecrets.servesNext {a : Access} {rest : List Input} (hs : ServesNext a rest s) :
    ServesNext a rest t :=
  ⟨h.rstN_eq ▸ hs.1, h.inputs_eq ▸ hs.2⟩

theorem State.SameButSecrets.nextInput_eq : nextInput s = nextInput t := by
  rw [nextInput, nextInput, h.rstN_eq, h.inputs_eq]

/-- No register shows a secret: KEY reads as 0, and of the Salsa20 words the counter alone is shown (60_exceptions.md R235). -/
theorem State.SameButSecrets.readReg_eq (r : Reg) : readReg s r = readReg t r := by
  have hready := h.salsaReady_eq
  obtain ⟨hrest, h8, h9⟩ := h
  have hshown := congrArg (readReg · r) hrest
  cases r with
  | sctr0 => simp only [readReg, State.sctr0, hready, h8]
  | sctr1 => simp only [readReg, State.sctr1, hready, h9]
  | _ => exact hshown

/-- Reset clears the secrets, so an edge of `rst_n` makes the two states one. -/
theorem State.SameButSecrets.exists_serveInput_edge (hr : s.rstN = false) {i : Input} (hi : ∀ a, i ≠ .access a) :
    ∃ u, serveInput i s = .next u ∧ serveInput i t = .next u := by
  have henter : enterReset t = enterReset s := (congrArg enterReset h.1 :).symm
  cases i with
  | access a => exact absurd rfl (hi a)
  | resetLow => exact ⟨_, rfl, congrArg Host.Outcome.next henter⟩
  | resetDuring a => exact ⟨_, rfl, congrArg Host.Outcome.next henter⟩
  | resetHigh =>
    have hclear : clearCore t = clearCore s := (congrArg clearCore h.1 :).symm
    refine ⟨_, rfl, congrArg Host.Outcome.next ?_⟩
    rw [leaveReset_of_low hr, leaveReset_of_low (h.rstN_eq ▸ hr), hclear]

theorem State.SameButSecrets.step_read {off : BitVec 12} {width : Nat} {rest : List Input}
    (hs : ServesNext (.read off width) rest s) :
    ∃ b, step s = .next { s with inputs := rest, bus := b } ∧ step t = .next { t with inputs := rest, bus := b } := by
  have ht := h.servesNext hs
  by_cases hok : width = 4 ∧ off.toNat % 4 = 0
  · obtain ⟨rfl, ha⟩ := hok
    exact ⟨_, step_of_read ha hs, by rw [step_of_read ha ht, h.readReg_eq]⟩
  · exact ⟨_, step_of_badRead hok hs, step_of_badRead hok ht⟩

theorem State.SameButSecrets.step_inReset (hr : s.rstN = false) :
    ∃ s' t', step s = .next s' ∧ step t = .next t' ∧ s'.bus = t'.bus ∧ s'.SameButSecrets t' := by
  have hnt := h.nextInput_eq
  cases hn : nextInput s with
  | none => exact ⟨s, t, step_of_nextInput_none hn, step_of_nextInput_none (hnt ▸ hn), h.bus_eq, h⟩
  | some p =>
    obtain ⟨i, rest⟩ := p
    have hedge : ∀ a, i ≠ .access a := by
      rintro a rfl
      rw [rstN_of_nextInput_access hn] at hr
      cases hr
    obtain ⟨u, hus, hut⟩ := (h.withInputs rest).exists_serveInput_edge hr hedge
    exact ⟨u, u, (step_of_nextInput hn).trans hus, (step_of_nextInput (hnt ▸ hn)).trans hut, rfl, .refl u⟩

end SameButSecrets

/-- Settles O12: no register shows a secret, and while `rst_n` is low a step waits or takes an edge, which clears them. -/
theorem secretsAreNeverRead : Obligations.SecretsAreNeverRead := by
  refine fun s t h => ⟨fun off width rest hs => ?_, h.step_inReset⟩
  obtain ⟨b, hstep, hstep'⟩ := h.step_read hs
  exact ⟨_, _, hstep, hstep', rfl, rfl, rfl⟩

end Sys2Proof.Machine

/-! ## Reset -/

namespace Sys2Proof.Machine

open Sys2Proof

/-- An edge of `rst_n` that is the oldest input is taken, whether `rst_n` is high or low. -/
theorem step_of_edge {s : State} {i : Input} {rest : List Input} (h : s.inputs = i :: rest) (hi : ∀ a, i ≠ .access a) :
    step s = serveInput i { s with inputs := rest } := by
  obtain hr | hr := s.rstN.eq_false_or_eq_true
  · exact step_of_input hr h
  · exact step_of_edge_in_reset (as := []) hr hi h

/-- Both kinds of low edge do the same; the access that one of them cuts leaves nothing (70_reset_and_hazards.md R253). -/
theorem step_of_lowEdge {s : State} {low : Input} {a : Access} {rest : List Input}
    (hlow : low = .resetLow ∨ low = .resetDuring a) (h : s.inputs = low :: rest) :
    step s = .next (enterReset { s with inputs := rest }) := by
  obtain rfl | rfl := hlow
  · exact step_of_edge h nofun
  · exact step_of_edge h nofun

/-- The high edge is taken past the accesses that wait, and no bus response is left. -/
theorem step_of_highEdge {s : State} {waiting : List Access} {rest : List Input} (hr : s.rstN = false)
    (h : s.inputs = waiting.map .access ++ .resetHigh :: rest) :
    step s = .next { State.reset with
      inputs := waiting.map .access ++ rest, rngDrawn := s.rngDrawn, resets := s.resets } :=
  (step_of_edge_in_reset (i := .resetHigh) hr nofun h).trans (congrArg Host.Outcome.next (leaveReset_of_low hr))

/-- Settles O17: the low edge clears the core and leaves `rst_n` low, so that the high edge is taken past what waits. -/
theorem resetLeavesNoTrace : Obligations.ResetLeavesNoTrace := by
  intro s low a between rest hlow hin
  exact ⟨_, _, step_of_lowEdge hlow hin, rfl, enterReset_sameCore _, step_of_highEdge rfl rfl, rfl⟩

theorem byteAt_zeros (n i : Nat) : byteAt (zeros n) i = 0 := by simp [byteAt]

theorem le32_zeros (n i : Nat) : le32 (zeros n) i = 0 := by simp only [le32, byteAt_zeros]; rfl

/-- Each register of the window shows a field whose reset value is 0, or shows 0 always (10_state.md R45). -/
theorem readReg_reset (r : Reg) : readReg State.reset r = 0 := by
  cases r with
  | nonce | iv | din | dout => exact le32_zeros _ _
  | cmd | status | key | sctr0 | sctr1 | reserved => rfl

/-- Settles O18: the aligned read puts its register's word on the bus, and at reset that is 0. -/
theorem resetReadsZero : Obligations.ResetReadsZero := by
  intro off rest ha
  rw [step_of_read ha ⟨rfl, rfl⟩, readReg_withInputs, readReg_reset]

end Sys2Proof.Machine
